-- ==== Sys2Proof/Word.lean ====
section
/-! DEFINITION. Bytes, operation words, variables, and the data types of the bus: cell widths, storage words, register positions and access-trace entries. -/

namespace Sys2Proof

/-- A value of a register view, a variable or a buffer byte (R10, R15). -/
abbrev Byte := BitVec 8

/-- The 32-bit operation word (R61). -/
abbrev OpWord := BitVec 32

/-- The index of a value variable, `t0` to `t15` (R17, `NVARS = 16` by R9). -/
abbrev Var := Fin 16

/-- The cell width `W`: 8 (narrow) or 32 (wide) bits (R4). -/
inductive CellWidth where
  | narrow
  | wide
  deriving DecidableEq, Repr

/-- A `W`-bit storage word of either width (R12, R21). -/
inductive CellWord where
  | narrow (b : BitVec 8)
  | wide (w : BitVec 32)
  deriving DecidableEq, Repr

/-- `BUS_ENDIAN` (R7). -/
inductive Endian where
  | little
  | big
  deriving DecidableEq, Repr

/-- The seven register positions, index 0 to 6 in this order (R12, R28). There is no other (R30). -/
inductive Position where
  /-- 0: receive data on read, transmit data on write. -/
  | data
  /-- 1: interrupt enable. -/
  | ier
  /-- 2: interrupt identification on read, FIFO control on write. -/
  | iirFcr
  /-- 3: line control. -/
  | lcr
  /-- 4: modem control. -/
  | mcr
  /-- 5: line status, read only. -/
  | lsr
  /-- 6: modem status, read only. -/
  | msr
  deriving DecidableEq, Repr

/-- The direction of a bus access, `R` or `W` (R21). -/
inductive Direction where
  | read
  | write
  deriving DecidableEq, Repr

/-- One entry `(dir, idx, w)` of the access trace (R21). -/
structure Access where
  dir : Direction
  pos : Position
  word : CellWord
  deriving DecidableEq, Repr

end Sys2Proof
end

