-- ==== Sys2Proof/Config.lean ====
section
/-! DEFINITION. What an implementation fixes (the parameters of R4 to R7, R9) and the two free values: the device's answers (R8) and the choice of the context that moves next (R43). -/

namespace Sys2Proof

/-- The parameters of one aggregate: `W` (R4), `BASE` (R6) and `BUS_ENDIAN` (R7). `STRIDE` follows from `W` (R5). -/
structure Params where
  width : CellWidth
  base : Nat
  endian : Endian
  deriving DecidableEq, Repr

/-- The size of the caller buffer `BUF` in bytes (R9, R19). -/
def Config.bufSize : Nat := 256

/-- FREE VALUE (log 1). The `DEVICE` parameter of R8: the word answered to a read, a function of the access history, the
register position and a free choice (the counter of draws). It has no body: no proof can learn an answer. A narrow cell
takes its low 8 bits. -/
opaque Config.device (history : List Access) (pos : Position) (draw : Nat) : BitVec 32

/-- FREE VALUE (log 4). Which context moves next: R43 admits every interleaving. It has no body. -/
opaque Config.nextTurn (turn : Nat) : Nat

end Sys2Proof
end

