-- ==== Sys2Proof/Syntax.lean ====
section
/-! DEFINITION. The closed enumerations of R16 and the operations: one constructor of `Instr` per row of spec/opcode_table.json, in the table's order. -/

namespace Sys2Proof

/-- FIFO trigger levels: 1, 4, 8, 14 bytes (R16, R51). -/
inductive TriggerLevel where
  | t1
  | t4
  | t8
  | t14
  deriving DecidableEq, Repr

/-- Character lengths: 5 to 8 data bits (R16, R53). -/
inductive CharLen where
  | five
  | six
  | seven
  | eight
  deriving DecidableEq, Repr

/-- Parity modes (R16, R54). -/
inductive Parity where
  | noParity
  | odd
  | even
  deriving DecidableEq, Repr

/-- Interrupt causes (R16, R49). -/
inductive Cause where
  | modemStatus
  | transmitterHoldingRegisterEmpty
  | receivedDataAvailable
  | receivedDataTimeout
  | receiverLineStatus
  deriving DecidableEq, Repr

/-- The operations of R63. Operands: `rd` destination variable, `rs` source variable, then the immediate of the format
(R62): a byte, an enumeration member, a Boolean, a divisor, or a buffer window `base`, `len`. -/
inductive Instr where
  -- 40_register_access.md
  | li (rd : Var) (imm : Byte)
  | rbrRead (rd : Var)
  | thrWrite (rs : Var)
  | ierRead (rd : Var)
  | ierWrite (rs : Var)
  | iirRead (rd : Var)
  | fcrWrite (rs : Var)
  | lcrRead (rd : Var)
  | lcrWrite (rs : Var)
  | mcrRead (rd : Var)
  | mcrWrite (rs : Var)
  | lsrRead (rd : Var)
  | msrRead (rd : Var)
  -- 41_fifo_control.md
  | fifoAndReset (rd : Var) (level : TriggerLevel)
  | fifoWithoutReset (rd : Var) (level : TriggerLevel)
  | fifoTriggerLevel (rd rs : Var)
  -- 43_interrupt_identification.md
  | iirPendingInterrupts (rd rs : Var)
  | iirFifosEnabled (rd rs : Var)
  -- 42_interrupt_enable.md
  | ierEnableRda (rd rs : Var)
  | ierDisableRda (rd rs : Var)
  | ierIsRdaEnabled (rd rs : Var)
  | ierEnableThre (rd rs : Var)
  | ierDisableThre (rd rs : Var)
  | ierIsThreEnabled (rd rs : Var)
  | ierEnableRls (rd rs : Var)
  | ierDisableRls (rd rs : Var)
  | ierIsRlsEnabled (rd rs : Var)
  | ierEnableMs (rd rs : Var)
  | ierDisableMs (rd rs : Var)
  | ierIsMsEnabled (rd rs : Var)
  -- 44_line_control.md
  | lcrDefault (rd : Var)
  | lcrEnableDlrAccess (rd rs : Var)
  | lcrDisableDlrAccess (rd rs : Var)
  | lcrEnableBreakControl (rd rs : Var)
  | lcrDisableBreakControl (rd rs : Var)
  | lcrEnableStickParity (rd rs : Var)
  | lcrDisableStickParity (rd rs : Var)
  | lcrSetParity (rd rs : Var) (mode : Parity)
  | lcrParity (rd rs : Var)
  | lcrSetOneStopBit (rd rs : Var) (one : Bool)
  | lcrIsOneStopBit (rd rs : Var)
  | lcrSetCharLen (rd rs : Var) (len : CharLen)
  | lcrCharLen (rd rs : Var)
  -- 45_line_status.md
  | lsrDataReady (rd rs : Var)
  | lsrOverrunError (rd rs : Var)
  | lsrParityError (rd rs : Var)
  | lsrFramingError (rd rs : Var)
  | lsrBreakInterrupt (rd rs : Var)
  | lsrThrEmpty (rd rs : Var)
  | lsrTransmitterEmpty (rd rs : Var)
  | lsrRxFifoError (rd rs : Var)
  -- 46_transfer.md
  | writeDivisor (d : BitVec 16)
  | read (rd : Var) (base len : Byte)
  | write (rd : Var) (base len : Byte)
  deriving DecidableEq, Repr

end Sys2Proof
end

