-- ==== Sys2Proof/WellFormed.lean ====
section
/-! DEFINITION. Which operations are well formed: the operand conditions the types of `Instr` do not already carry (R64 check 4). -/

namespace Sys2Proof

/-- The buffer window lies inside `BUF`: `base + len <= 256` (R64 check 4, R137). -/
def windowInBuffer (base len : Byte) : Bool := decide (base.toNat + len.toNat ≤ Config.bufSize)

/-- An operation the decoder can give. The enumeration operands (R64 check 3) are closed types, so only the windows of the
two drains are left to check. -/
def Instr.wellFormed : Instr → Bool
  | .li _ _ => true
  | .rbrRead _ => true
  | .thrWrite _ => true
  | .ierRead _ => true
  | .ierWrite _ => true
  | .iirRead _ => true
  | .fcrWrite _ => true
  | .lcrRead _ => true
  | .lcrWrite _ => true
  | .mcrRead _ => true
  | .mcrWrite _ => true
  | .lsrRead _ => true
  | .msrRead _ => true
  | .fifoAndReset _ _ => true
  | .fifoWithoutReset _ _ => true
  | .fifoTriggerLevel _ _ => true
  | .iirPendingInterrupts _ _ => true
  | .iirFifosEnabled _ _ => true
  | .ierEnableRda _ _ => true
  | .ierDisableRda _ _ => true
  | .ierIsRdaEnabled _ _ => true
  | .ierEnableThre _ _ => true
  | .ierDisableThre _ _ => true
  | .ierIsThreEnabled _ _ => true
  | .ierEnableRls _ _ => true
  | .ierDisableRls _ _ => true
  | .ierIsRlsEnabled _ _ => true
  | .ierEnableMs _ _ => true
  | .ierDisableMs _ _ => true
  | .ierIsMsEnabled _ _ => true
  | .lcrDefault _ => true
  | .lcrEnableDlrAccess _ _ => true
  | .lcrDisableDlrAccess _ _ => true
  | .lcrEnableBreakControl _ _ => true
  | .lcrDisableBreakControl _ _ => true
  | .lcrEnableStickParity _ _ => true
  | .lcrDisableStickParity _ _ => true
  | .lcrSetParity _ _ _ => true
  | .lcrParity _ _ => true
  | .lcrSetOneStopBit _ _ _ => true
  | .lcrIsOneStopBit _ _ => true
  | .lcrSetCharLen _ _ _ => true
  | .lcrCharLen _ _ => true
  | .lsrDataReady _ _ => true
  | .lsrOverrunError _ _ => true
  | .lsrParityError _ _ => true
  | .lsrFramingError _ _ => true
  | .lsrBreakInterrupt _ _ => true
  | .lsrThrEmpty _ _ => true
  | .lsrTransmitterEmpty _ _ => true
  | .lsrRxFifoError _ _ => true
  | .writeDivisor _ => true
  | .read _ base len => windowInBuffer base len
  | .write _ base len => windowInBuffer base len

end Sys2Proof
end

