-- ==== Sys2Proof/Decode.lean ====
section
/-! DEFINITION. The decoder of operation words (R61 to R66), total on every 32-bit word and refusing by name, and after it the encoder from the same tables. -/

namespace Sys2Proof

/-! ## Enumeration codes (30_encoding.md) -/

/-- FIFO trigger codes (R51). -/
def TriggerLevel.code : TriggerLevel → BitVec 2
  | .t1 => 0b00#2
  | .t4 => 0b01#2
  | .t8 => 0b10#2
  | .t14 => 0b11#2

/-- R51: the decode of a 2-bit trigger code is total. -/
def TriggerLevel.ofCode (c : BitVec 2) : TriggerLevel :=
  if c = 0b00#2 then .t1 else if c = 0b01#2 then .t4 else if c = 0b10#2 then .t8 else .t14

/-- Character-length codes (R53). -/
def CharLen.code : CharLen → BitVec 2
  | .five => 0b00#2
  | .six => 0b01#2
  | .seven => 0b10#2
  | .eight => 0b11#2

/-- R53: "decoding is total and never fails". -/
def CharLen.ofCode (c : BitVec 2) : CharLen :=
  if c = 0b00#2 then .five else if c = 0b01#2 then .six else if c = 0b10#2 then .seven else .eight

/-- Parity codes as `set_parity` writes them (R54). -/
def Parity.code : Parity → BitVec 2
  | .noParity => 0b00#2
  | .odd => 0b01#2
  | .even => 0b11#2

/-- R54: the field as `parity` reads it; the reserved pattern `0b10` is normalised to `None`. -/
def Parity.ofField (f : BitVec 2) : Parity :=
  if f = 0b01#2 then .odd else if f = 0b11#2 then .even else .noParity

/-! ### Enumeration immediates: `none` where R64 check 3 refuses the code. -/

/-- `fifo_and_reset`, `fifo_without_reset`: refused when `imm[7:0] > 3`. -/
def TriggerLevel.ofImm (v : Byte) : Option TriggerLevel :=
  if v.toNat ≤ 3 then some (.ofCode (v.setWidth 2)) else none

/-- `lcr_set_char_len`: refused when `imm[7:0] > 3`. -/
def CharLen.ofImm (v : Byte) : Option CharLen :=
  if v.toNat ≤ 3 then some (.ofCode (v.setWidth 2)) else none

/-- `lcr_set_parity`: refused when `imm[7:0]` is not 0, 1 or 3. -/
def Parity.ofImm (v : Byte) : Option Parity :=
  if v = 0#8 then some .noParity else if v = 1#8 then some .odd else if v = 3#8 then some .even else none

/-- `lcr_set_one_stop_bit`: refused when `imm[7:0] > 1`. -/
def stopBitOfImm (v : Byte) : Option Bool :=
  if v = 0#8 then some false else if v = 1#8 then some true else none

/-- A Boolean immediate (R62 `RRI`): 0 or 1. -/
def stopBitImm (one : Bool) : Byte := if one then 1#8 else 0#8

/-! ## The fields of the word (R61) -/

structure Fields where
  op : BitVec 8
  rd : BitVec 4
  rs : BitVec 4
  imm : BitVec 16
  deriving DecidableEq, Repr

/-- R61: `op` 31:24, `rd` 23:20, `rs` 19:16, `imm` 15:0. -/
def Fields.ofWord (w : OpWord) : Fields :=
  { op := w.extractLsb' 24 8, rd := w.extractLsb' 20 4, rs := w.extractLsb' 16 4, imm := w.extractLsb' 0 16 }

def Fields.toWord (f : Fields) : OpWord := f.op ++ f.rd ++ f.rs ++ f.imm

/-- `imm[15:8]`. -/
def Fields.immHi (f : Fields) : Byte := f.imm.extractLsb' 8 8

/-- `imm[7:0]`. -/
def Fields.immLo (f : Fields) : Byte := f.imm.extractLsb' 0 8

/-! ## Decoding (R62 to R64) -/

/-- Why the decoder refuses a word: the four checks of R64, in their order. -/
inductive DecodeError where
  /-- Check 1: `op` is not in the map of R63. -/
  | unknownOpcode
  /-- Check 2: a field the format does not use is not zero. -/
  | unusedFieldNonzero
  /-- Check 3: an enumeration immediate is out of range. -/
  | enumOutOfRange
  /-- Check 4: `base + len > 256`. -/
  | windowPastBuffer
  deriving DecidableEq, Repr

/-- R64: an operation with its operands, or a refusal. -/
inductive Decoded where
  | instr (i : Instr)
  | refused (why : DecodeError)
  deriving DecidableEq, Repr

/-- Check 2: the word is refused unless the unused fields are zero. -/
def whenUnusedZero (unusedZero : Bool) (k : Decoded) : Decoded :=
  if unusedZero then k else .refused .unusedFieldNonzero

/-- Check 3: the word is refused when the immediate names no member. -/
def whenInRange (o : Option Instr) : Decoded :=
  match o with
  | some i => .instr i
  | none => .refused .enumOutOfRange

/-- Check 4: the word is refused when the window passes the end of `BUF`. -/
def whenWindowFits (base len : Byte) (i : Instr) : Decoded :=
  if windowInBuffer base len then .instr i else .refused .windowPastBuffer

/-! The seven formats of R62. -/

def formRD (f : Fields) (k : Var → Instr) : Decoded :=
  whenUnusedZero (f.rs == 0#4 && f.imm == 0#16) (.instr (k f.rd.toFin))

def formRS (f : Fields) (k : Var → Instr) : Decoded :=
  whenUnusedZero (f.rd == 0#4 && f.imm == 0#16) (.instr (k f.rs.toFin))

def formRR (f : Fields) (k : Var → Var → Instr) : Decoded :=
  whenUnusedZero (f.imm == 0#16) (.instr (k f.rd.toFin f.rs.toFin))

def formRRI (f : Fields) (k : Var → Var → Byte → Option Instr) : Decoded :=
  whenUnusedZero (f.immHi == 0#8) (whenInRange (k f.rd.toFin f.rs.toFin f.immLo))

def formRI (f : Fields) (k : Var → Byte → Option Instr) : Decoded :=
  whenUnusedZero (f.rs == 0#4 && f.immHi == 0#8) (whenInRange (k f.rd.toFin f.immLo))

def formI16 (f : Fields) (k : BitVec 16 → Instr) : Decoded :=
  whenUnusedZero (f.rd == 0#4 && f.rs == 0#4) (.instr (k f.imm))

def formX (f : Fields) (k : Var → Byte → Byte → Instr) : Decoded :=
  whenUnusedZero (f.rs == 0#4) (whenWindowFits f.immHi f.immLo (k f.rd.toFin f.immHi f.immLo))

/-- The opcode map of R63. -/
def decodeFields (f : Fields) : Decoded :=
  match f.op with
  | 0x01#8 => formRI f fun rd v => some (.li rd v)
  | 0x10#8 => formRD f .rbrRead
  | 0x11#8 => formRS f .thrWrite
  | 0x12#8 => formRD f .ierRead
  | 0x13#8 => formRS f .ierWrite
  | 0x14#8 => formRD f .iirRead
  | 0x15#8 => formRS f .fcrWrite
  | 0x16#8 => formRD f .lcrRead
  | 0x17#8 => formRS f .lcrWrite
  | 0x18#8 => formRD f .mcrRead
  | 0x19#8 => formRS f .mcrWrite
  | 0x1A#8 => formRD f .lsrRead
  | 0x1B#8 => formRD f .msrRead
  | 0x20#8 => formRI f fun rd v => (TriggerLevel.ofImm v).map (.fifoAndReset rd)
  | 0x21#8 => formRI f fun rd v => (TriggerLevel.ofImm v).map (.fifoWithoutReset rd)
  | 0x22#8 => formRR f .fifoTriggerLevel
  | 0x28#8 => formRR f .iirPendingInterrupts
  | 0x29#8 => formRR f .iirFifosEnabled
  | 0x30#8 => formRR f .ierEnableRda
  | 0x31#8 => formRR f .ierDisableRda
  | 0x32#8 => formRR f .ierIsRdaEnabled
  | 0x33#8 => formRR f .ierEnableThre
  | 0x34#8 => formRR f .ierDisableThre
  | 0x35#8 => formRR f .ierIsThreEnabled
  | 0x36#8 => formRR f .ierEnableRls
  | 0x37#8 => formRR f .ierDisableRls
  | 0x38#8 => formRR f .ierIsRlsEnabled
  | 0x39#8 => formRR f .ierEnableMs
  | 0x3A#8 => formRR f .ierDisableMs
  | 0x3B#8 => formRR f .ierIsMsEnabled
  | 0x40#8 => formRD f .lcrDefault
  | 0x41#8 => formRR f .lcrEnableDlrAccess
  | 0x42#8 => formRR f .lcrDisableDlrAccess
  | 0x43#8 => formRR f .lcrEnableBreakControl
  | 0x44#8 => formRR f .lcrDisableBreakControl
  | 0x45#8 => formRR f .lcrEnableStickParity
  | 0x46#8 => formRR f .lcrDisableStickParity
  | 0x47#8 => formRRI f fun rd rs v => (Parity.ofImm v).map (.lcrSetParity rd rs)
  | 0x48#8 => formRR f .lcrParity
  | 0x49#8 => formRRI f fun rd rs v => (stopBitOfImm v).map (.lcrSetOneStopBit rd rs)
  | 0x4A#8 => formRR f .lcrIsOneStopBit
  | 0x4B#8 => formRRI f fun rd rs v => (CharLen.ofImm v).map (.lcrSetCharLen rd rs)
  | 0x4C#8 => formRR f .lcrCharLen
  | 0x50#8 => formRR f .lsrDataReady
  | 0x51#8 => formRR f .lsrOverrunError
  | 0x52#8 => formRR f .lsrParityError
  | 0x53#8 => formRR f .lsrFramingError
  | 0x54#8 => formRR f .lsrBreakInterrupt
  | 0x55#8 => formRR f .lsrThrEmpty
  | 0x56#8 => formRR f .lsrTransmitterEmpty
  | 0x57#8 => formRR f .lsrRxFifoError
  | 0x70#8 => formI16 f .writeDivisor
  | 0x71#8 => formX f .read
  | 0x72#8 => formX f .write
  | _ => .refused .unknownOpcode

/-- The decoder of R64: total, on any 32-bit word. -/
def decode (w : OpWord) : Decoded := decodeFields (Fields.ofWord w)

def Decoded.toOption : Decoded → Option Instr
  | .instr i => some i
  | .refused _ => none

/-! ## Encoding, from the same tables (R61 to R63) -/

/-- The fields of an operand variable. -/
def varField (x : Var) : BitVec 4 := BitVec.ofFin x

/-- A byte immediate, zero-extended to `imm` (R62). -/
def byteImm (v : Byte) : BitVec 16 := 0#8 ++ v

def fieldsRD (op : BitVec 8) (rd : Var) : Fields := { op := op, rd := varField rd, rs := 0#4, imm := 0#16 }
def fieldsRS (op : BitVec 8) (rs : Var) : Fields := { op := op, rd := 0#4, rs := varField rs, imm := 0#16 }
def fieldsRR (op : BitVec 8) (rd rs : Var) : Fields := { op := op, rd := varField rd, rs := varField rs, imm := 0#16 }
def fieldsRRI (op : BitVec 8) (rd rs : Var) (v : Byte) : Fields :=
  { op := op, rd := varField rd, rs := varField rs, imm := byteImm v }
def fieldsRI (op : BitVec 8) (rd : Var) (v : Byte) : Fields := { op := op, rd := varField rd, rs := 0#4, imm := byteImm v }
def fieldsI16 (op : BitVec 8) (d : BitVec 16) : Fields := { op := op, rd := 0#4, rs := 0#4, imm := d }
def fieldsX (op : BitVec 8) (rd : Var) (base len : Byte) : Fields :=
  { op := op, rd := varField rd, rs := 0#4, imm := base ++ len }

/-- The fields of an operation's word. -/
def encodeFields : Instr → Fields
  | .li rd v => fieldsRI 0x01#8 rd v
  | .rbrRead rd => fieldsRD 0x10#8 rd
  | .thrWrite rs => fieldsRS 0x11#8 rs
  | .ierRead rd => fieldsRD 0x12#8 rd
  | .ierWrite rs => fieldsRS 0x13#8 rs
  | .iirRead rd => fieldsRD 0x14#8 rd
  | .fcrWrite rs => fieldsRS 0x15#8 rs
  | .lcrRead rd => fieldsRD 0x16#8 rd
  | .lcrWrite rs => fieldsRS 0x17#8 rs
  | .mcrRead rd => fieldsRD 0x18#8 rd
  | .mcrWrite rs => fieldsRS 0x19#8 rs
  | .lsrRead rd => fieldsRD 0x1A#8 rd
  | .msrRead rd => fieldsRD 0x1B#8 rd
  | .fifoAndReset rd v => fieldsRI 0x20#8 rd (v.code.setWidth 8)
  | .fifoWithoutReset rd v => fieldsRI 0x21#8 rd (v.code.setWidth 8)
  | .fifoTriggerLevel rd rs => fieldsRR 0x22#8 rd rs
  | .iirPendingInterrupts rd rs => fieldsRR 0x28#8 rd rs
  | .iirFifosEnabled rd rs => fieldsRR 0x29#8 rd rs
  | .ierEnableRda rd rs => fieldsRR 0x30#8 rd rs
  | .ierDisableRda rd rs => fieldsRR 0x31#8 rd rs
  | .ierIsRdaEnabled rd rs => fieldsRR 0x32#8 rd rs
  | .ierEnableThre rd rs => fieldsRR 0x33#8 rd rs
  | .ierDisableThre rd rs => fieldsRR 0x34#8 rd rs
  | .ierIsThreEnabled rd rs => fieldsRR 0x35#8 rd rs
  | .ierEnableRls rd rs => fieldsRR 0x36#8 rd rs
  | .ierDisableRls rd rs => fieldsRR 0x37#8 rd rs
  | .ierIsRlsEnabled rd rs => fieldsRR 0x38#8 rd rs
  | .ierEnableMs rd rs => fieldsRR 0x39#8 rd rs
  | .ierDisableMs rd rs => fieldsRR 0x3A#8 rd rs
  | .ierIsMsEnabled rd rs => fieldsRR 0x3B#8 rd rs
  | .lcrDefault rd => fieldsRD 0x40#8 rd
  | .lcrEnableDlrAccess rd rs => fieldsRR 0x41#8 rd rs
  | .lcrDisableDlrAccess rd rs => fieldsRR 0x42#8 rd rs
  | .lcrEnableBreakControl rd rs => fieldsRR 0x43#8 rd rs
  | .lcrDisableBreakControl rd rs => fieldsRR 0x44#8 rd rs
  | .lcrEnableStickParity rd rs => fieldsRR 0x45#8 rd rs
  | .lcrDisableStickParity rd rs => fieldsRR 0x46#8 rd rs
  | .lcrSetParity rd rs v => fieldsRRI 0x47#8 rd rs (v.code.setWidth 8)
  | .lcrParity rd rs => fieldsRR 0x48#8 rd rs
  | .lcrSetOneStopBit rd rs v => fieldsRRI 0x49#8 rd rs (stopBitImm v)
  | .lcrIsOneStopBit rd rs => fieldsRR 0x4A#8 rd rs
  | .lcrSetCharLen rd rs v => fieldsRRI 0x4B#8 rd rs (v.code.setWidth 8)
  | .lcrCharLen rd rs => fieldsRR 0x4C#8 rd rs
  | .lsrDataReady rd rs => fieldsRR 0x50#8 rd rs
  | .lsrOverrunError rd rs => fieldsRR 0x51#8 rd rs
  | .lsrParityError rd rs => fieldsRR 0x52#8 rd rs
  | .lsrFramingError rd rs => fieldsRR 0x53#8 rd rs
  | .lsrBreakInterrupt rd rs => fieldsRR 0x54#8 rd rs
  | .lsrThrEmpty rd rs => fieldsRR 0x55#8 rd rs
  | .lsrTransmitterEmpty rd rs => fieldsRR 0x56#8 rd rs
  | .lsrRxFifoError rd rs => fieldsRR 0x57#8 rd rs
  | .writeDivisor d => fieldsI16 0x70#8 d
  | .read rd base len => fieldsX 0x71#8 rd base len
  | .write rd base len => fieldsX 0x72#8 rd base len

/-- The operation word of an operation. -/
def encode (i : Instr) : OpWord := (encodeFields i).toWord

/-! ## The host's door -/

/-- The operation the decoder reads from an instruction of `nbits` bits with value `w` (bit 0 the least significant bit of
the one 32-bit operation word; every bit above `nbits` is 0). There is no longer form (R66). -/
def decodeTableWord (nbits w : Nat) : Option Instr :=
  if nbits ≤ 32 then (decode (BitVec.ofNat 32 (w % 2 ^ nbits))).toOption else none

end Sys2Proof
end

