-- ==== Sys2Proof/Machine/State.lean ====
section
/-! DEFINITION. The machine's state as plain data (10_state.md), the reasons a step can stop, and the state at construction. -/

namespace Sys2Proof.Machine

/-- What a value variable holds (R17): `unwritten`, or an 8-bit value. `unwritten` is the spec's own state, and what every
variable holds at construction (R25; log 6). -/
inductive VarValue where
  | unwritten
  | byte (v : Byte)
  deriving DecidableEq, Repr

/-- A fault's name with the operand that raised it (R23, R139, R140). -/
inductive FaultCause where
  /-- `IIR_INVALID_CAUSE`, with the whole operand byte (R139). -/
  | iirInvalidCause (v : Byte)
  /-- `UNWRITTEN_VARIABLE`, with the variable read (R140). -/
  | unwrittenVariable (rs : Var)
  deriving DecidableEq, Repr

/-- One entry of the fault record (R23): the fault with its operand, and the `pc` that raised it. -/
structure FaultEntry where
  cause : FaultCause
  pc : Nat
  deriving DecidableEq, Repr

/-- The fields of the transfer machine that `read` and `write` use (R22): the variable that receives the count, the
buffer window, and the bytes moved so far. -/
structure Drain where
  rd : Var
  base : Byte
  len : Byte
  i : Byte
  deriving DecidableEq, Repr

/-- The transfer state machine (R22). A phase carries the fields it uses; in `Idle` they are unspecified and no rule reads
them, so they are not there (log 9). -/
inductive Phase where
  | idle
  /-- The phases of `write_divisor` (R129), with the divisor `d`, and `L` once it is read. -/
  | div0 (d : BitVec 16)
  | div1 (d : BitVec 16) (l : Byte)
  | div2 (d : BitVec 16) (l : Byte)
  | div3 (d : BitVec 16) (l : Byte)
  | div4 (d : BitVec 16) (l : Byte)
  /-- The phases of `read` (R131). -/
  | rdPoll (w : Drain)
  | rdData (w : Drain)
  /-- The phases of `write` (R133). -/
  | wrPoll (w : Drain)
  | wrData (w : Drain)
  deriving DecidableEq, Repr

/-- The caller buffer's contents: (address, byte) pairs in the canonical form of `Memory.wf` (Machine/Ops.lean). -/
abbrev Memory := List Host.Cell

/-- What one context has of its own (R148): value variables (R17), caller buffer (R19), program and `pc` (R20), transfer
machine (R22), fault record and refusal mark (R23, R65). -/
structure Context where
  vars : Vector VarValue 16
  buf : Memory
  program : List OpWord
  pc : Nat
  phase : Phase
  faults : List FaultEntry
  refused : Bool
  deriving DecidableEq, Repr

/-- The model's own fields: the outside world as plain data (logs 1 and 4). `answers` are answers the device will give, by
position, the first of a position next (the scripted device of spec/95_test_vectors.md section 0); where none is left the
answer is the free value `Config.device`, with `draws` as its free choice. `schedule` and `turns` are the same for the
choice of the context that moves next. -/
structure Environment where
  answers : List (Position × BitVec 32)
  draws : Nat
  schedule : List Nat
  turns : Nat
  deriving DecidableEq, Repr

/-- Why the machine has no further step. -/
inductive Fault where
  /-- Raised by `step` when no context can move and the one whose turn it is has a fault recorded (R141). Safe: the spec
  gives it no further step. -/
  | contextFaulted
  /-- Raised by `step` when no context can move and the one whose turn it is was refused a word (R65). Safe. -/
  | contextRefused
  /-- Raised by `step` when no context can move and the one whose turn it is has completed, `pc = N` with the transfer
  machine idle (R20). It is the end of that context's run, no error of it (log 12); another context
  may have stopped with a fault or a refusal (log 18). Safe. -/
  | contextCompleted
  /-- Raised by `step` when no context can move and the one whose turn it is has `pc > N`. R20 says `pc` never passes `N`:
  no run reaches it. Safe. -/
  | pcPastEnd
  /-- Raised by a drain's data phase when `base + i` is no index of `BUF`. R137 says it never is: no run reaches it
  (log 13). Safe. -/
  | bufferRange
  deriving DecidableEq, Repr

/-- Why the machine has no meaning for a state. -/
inductive Refusal where
  /-- Raised by a dispatch arm of an operation that has no meaning yet. No arm does. Safe. -/
  | notModelled (mnemonic : String)
  /-- Raised by `step` when `BASE` is not a multiple of `STRIDE`: such an aggregate is refused at construction and has no
  run (R36; log 10). Safe. -/
  | misalignedBase
  deriving DecidableEq, Repr

/-- The whole state: the parameters (R4 to R7), which no step changes; the context whose turn it is and the other ones
(R148; they have no identifiers); the access trace they share (R21, R148); and the outside world. -/
structure State where
  params : Params
  ctx : Context
  others : List Context
  trace : List Access
  env : Environment
  deriving DecidableEq, Repr

/-- A context at construction (R25), with the program and the buffer the caller gives it at launch. -/
def Context.launch (program : List OpWord) (buf : Memory) : Context :=
  { vars := Vector.replicate 16 .unwritten, buf := buf, program := program, pc := 0, phase := .idle, faults := [],
    refused := false }

/-- Nothing scripted, nothing drawn yet. -/
def Environment.start : Environment := { answers := [], draws := 0, schedule := [], turns := 0 }

/-- The machine right after construction (R25, R150): one context, with nothing placed in its program (log 11) or its
buffer (log 7), and the parameters of log 8. -/
def State.reset : State :=
  { params := { width := .narrow, base := 0, endian := .little }, ctx := Context.launch [] [], others := [], trace := [],
    env := Environment.start }

end Sys2Proof.Machine
end

