-- ==== Sys2Proof/Machine/Ops.lean ====
section
/-! DEFINITION. The named operations over cells, the bus, the caller buffer, the variables, the fault record and the refusal mark. -/

namespace Sys2Proof.Machine

/-- What a meaning answers. -/
abbrev Result := Host.Outcome State Fault Refusal

/-! ## Cells and addresses (00_scope.md, 20_memory.md) -/

/-- `W` in bits (R4). -/
def cellBits : CellWidth → Nat
  | .narrow => 8
  | .wide => 32

/-- `STRIDE = W / 8` (R5). -/
def stride (w : CellWidth) : Nat := cellBits w / 8

/-- R31 `from`: the storage word of a byte, zero-extended to `W` bits. -/
def cellOfByte (w : CellWidth) (v : Byte) : CellWord :=
  match w with
  | .narrow => .narrow v
  | .wide => .wide (v.setWidth 32)

/-- R31 `value`: the 8 significant bits, `w[7:0]`. -/
def cellValue : CellWord → Byte
  | .narrow b => b
  | .wide w => w.setWidth 8

/-- The width of a storage word. -/
def cellWidthOf : CellWord → CellWidth
  | .narrow _ => .narrow
  | .wide _ => .wide

/-- The device's answer as a `W`-bit word (R8): a narrow cell has the low 8 bits (log 14). -/
def cellOfAnswer (w : CellWidth) (a : BitVec 32) : CellWord :=
  match w with
  | .narrow => .narrow (a.setWidth 8)
  | .wide => .wide a

/-- The index of a register position, 0 to 6 (R28). -/
def positionIndex : Position → Nat
  | .data => 0
  | .ier => 1
  | .iirFcr => 2
  | .lcr => 3
  | .mcr => 4
  | .lsr => 5
  | .msr => 6

/-- The byte address of a position: `BASE + idx * STRIDE` (R27). -/
def positionAddress (p : Params) (pos : Position) : Nat := p.base + positionIndex pos * stride p.width

/-- The byte addresses of the device register region: `7 * STRIDE` bytes from `BASE` (R27). -/
def inRegion (p : Params) (a : Nat) : Bool := decide (p.base ≤ a) && decide (a < p.base + 7 * stride p.width)

/-- R36: `BASE` is a multiple of `STRIDE`. -/
def baseAligned (p : Params) : Bool := p.base % stride p.width == 0

/-- R35: the byte address that carries bits [7:0] of an access to a position, the lowest of the cell for `little`, the
highest for `big`. No operation uses it. -/
def significantByteAddress (p : Params) (pos : Position) : Nat :=
  match p.endian with
  | .little => positionAddress p pos
  | .big => positionAddress p pos + (stride p.width - 1)

/-- The bus transaction behind a trace entry: `MemRead` or `MemWrite` at `(byte address, bytes)` (R32, R33, R37). -/
def accessSpan (p : Params) (a : Access) : Nat × Nat := (positionAddress p a.pos, stride p.width)

/-! ## The caller buffer (R19) -/

/-- What a byte of `BUF` that is not listed holds (log 7). -/
def unlistedByte : Byte := 0#8

/-- One byte of a memory. -/
def memRead : Memory → Nat → Byte
  | [], _ => unlistedByte
  | (k, c) :: m, a => if k = a then c else memRead m a

/-- Put a byte at an address, keeping the addresses rising. -/
def memPut : Memory → Nat → Byte → Memory
  | [], a, b => [(a, b)]
  | (k, c) :: m, a, b => if a < k then (a, b) :: (k, c) :: m else if a = k then (a, b) :: m else (k, c) :: memPut m a b

/-- Take an address out of the list. -/
def memErase : Memory → Nat → Memory
  | [], _ => []
  | (k, c) :: m, a => if k = a then m else (k, c) :: memErase m a

/-- Write one byte, keeping the canonical form: writing what an unlisted address holds removes the entry. -/
def memWrite (m : Memory) (a : Nat) (b : Byte) : Memory :=
  if b = unlistedByte then memErase m a else memPut m a b

/-- The canonical form from address `lo` on: addresses rise strictly, lie in `BUF`, and no entry holds what an unlisted
address holds. -/
def memWfFrom : Nat → Memory → Bool
  | _, [] => true
  | lo, (k, c) :: m => decide (lo ≤ k) && decide (k < Config.bufSize) && (c != unlistedByte) && memWfFrom (k + 1) m

/-- The canonical form of a buffer's contents. -/
def Memory.wf (m : Memory) : Bool := memWfFrom 0 m

/-! ## The context whose turn it is -/

/-- `t[r]` (R17). -/
def State.var (s : State) (r : Var) : VarValue := s.ctx.vars[r]

/-- `t[r] <- v` (R17). -/
def State.setVar (s : State) (r : Var) (v : Byte) : State :=
  { s with ctx := { s.ctx with vars := s.ctx.vars.set r (.byte v) } }

/-- `pc <- pc + 1` (R20). -/
def State.advancePc (s : State) : State := { s with ctx := { s.ctx with pc := s.ctx.pc + 1 } }

/-- `phase <- p` (R22). -/
def State.setPhase (s : State) (p : Phase) : State := { s with ctx := { s.ctx with phase := p } }

/-- `BUF[a]` (R19). -/
def State.bufByte (s : State) (a : Nat) : Byte := memRead s.ctx.buf a

/-- `BUF[a] <- b` (R19). -/
def State.setBuf (s : State) (a : Nat) (b : Byte) : State :=
  { s with ctx := { s.ctx with buf := memWrite s.ctx.buf a b } }

/-! ## The bus (20_memory.md) -/

/-- R21: one entry appended to the trace. -/
def State.emit (s : State) (dir : Direction) (pos : Position) (w : CellWord) : State :=
  { s with trace := s.trace ++ [{ dir := dir, pos := pos, word := w }] }

/-- The first scripted answer of a position. -/
def scriptedAnswer : List (Position × BitVec 32) → Position → Option (BitVec 32)
  | [], _ => none
  | (p, a) :: rest, pos => if p = pos then some a else scriptedAnswer rest pos

/-- The script once the first answer of a position is taken. -/
def dropAnswer : List (Position × BitVec 32) → Position → List (Position × BitVec 32)
  | [], _ => []
  | (p, a) :: rest, pos => if p = pos then rest else (p, a) :: dropAnswer rest pos

/-- The word the device answers to a read of a position now (R8): the scripted answer, else the free value. -/
def State.answer (s : State) (pos : Position) : CellWord :=
  cellOfAnswer s.params.width
    (match scriptedAnswer s.env.answers pos with
    | some a => a
    | none => Config.device s.trace pos s.env.draws)

/-- The device has answered a read of a position: its script and its free choice move on. -/
def State.drawAnswer (s : State) (pos : Position) : State :=
  { s with env := { s.env with answers := dropAnswer s.env.answers pos, draws := s.env.draws + 1 } }

/-- `CellRead(idx)` (R32): the state after the one bus read. -/
def State.cellRead (s : State) (pos : Position) : State := (s.emit .read pos (s.answer pos)).drawAnswer pos

/-- `CellRead(idx)` (R32): the byte it returns. -/
def State.readByte (s : State) (pos : Position) : Byte := cellValue (s.answer pos)

/-- `CellWrite(idx, v)` (R33): one bus write of the whole storage word; nothing is read or merged. -/
def State.cellWrite (s : State) (pos : Position) (v : Byte) : State := s.emit .write pos (cellOfByte s.params.width v)

/-! ## Faults and refusals (60_exceptions.md) -/

/-- `raise Fault(..)` (R23, R139 to R141): the entry joins the fault record with the `pc` of the faulting word. No variable is
written and `pc` stays. There is no handler to go to and no return from one (R138): the context has no further step. -/
def State.raise (s : State) (cause : FaultCause) : State :=
  { s with ctx := { s.ctx with faults := s.ctx.faults ++ [{ cause := cause, pc := s.ctx.pc }] } }

/-- R65: the decoder refused the word at `pc`: the refusal mark is set and nothing else changes. -/
def State.refuseWord (s : State) : State := { s with ctx := { s.ctx with refused := true } }

/-- Why a context has no further step, if it has none: a recorded fault (R141), the refusal mark (R65), or, with the
transfer machine idle, no word at `pc` (R20). -/
def Context.stopReason (c : Context) : Option Fault :=
  if c.faults.isEmpty then
    if c.refused then some .contextRefused
    else if c.phase = .idle then
      if c.pc < c.program.length then none
      else if c.pc = c.program.length then some .contextCompleted
      else some .pcPastEnd
    else none
  else some .contextFaulted

/-- The context has a further step. -/
def Context.live (c : Context) : Bool := c.stopReason.isNone

/-! ## Construction (R25, R36, R150) and fetching (R45) -/

/-- Every context of the machine. -/
def State.contexts (s : State) : List Context := s.ctx :: s.others

/-- R25, R36: construct the aggregate, with a launch (program, buffer) for the first context and for each further one. No
access is made. A `BASE` that is not a multiple of `STRIDE` is refused. -/
def construct (params : Params) (first : List OpWord × Memory) (further : List (List OpWord × Memory)) (env : Environment) :
    Option State :=
  if baseAligned params then
    some { params := params, ctx := Context.launch first.1 first.2,
           others := further.map fun l => Context.launch l.1 l.2, trace := [], env := env }
  else none

/-- The operation word at `pc` (R20, R45). -/
def State.fetch (s : State) : Option OpWord := s.ctx.program[s.ctx.pc]?

/-- A program with a word placed at an index: words before it that are not there are 0. -/
def placeWord (program : List OpWord) (n : Nat) (w : OpWord) : List OpWord :=
  if n < program.length then program.set n w else program ++ List.replicate (n - program.length) 0#32 ++ [w]

end Sys2Proof.Machine
end

