-- ==== Sys2Proof/Machine/Operands.lean ====
section
/-! DEFINITION. The operand forms (R62, R69): reading the source variable, ending an operation with its result, and the shapes the families share. -/

namespace Sys2Proof.Machine

/-- Read the operand variable before anything else (R140): an `unwritten` one raises `UNWRITTEN_VARIABLE`. -/
def withOperand (rs : Var) (s : State) (k : Byte → Result) : Result :=
  match s.var rs with
  | .byte v => k v
  | .unwritten => .next (s.raise (.unwrittenVariable rs))

/-- `t[rd] <- v; pc <- pc + 1`. -/
def State.complete (s : State) (rd : Var) (v : Byte) : State := (s.setVar rd v).advancePc

/-- A pure operation of format `RR` or `RRI`: `v <- t[rs]; t[rd] <- f(v); pc <- pc + 1`. The source is read before the
destination is written, so `rd = rs` is allowed (R88). -/
def pureOp (rd rs : Var) (f : Byte → Byte) (s : State) : Result :=
  withOperand rs s fun v => .next (s.complete rd (f v))

/-- An operation of format `RD` or `RI` whose result is a constant: `t[rd] <- v; pc <- pc + 1`. -/
def constOp (rd : Var) (v : Byte) (s : State) : Result := .next (s.complete rd v)

/-- A view read (R69): `t[rd] <- CellRead(idx); pc <- pc + 1`. -/
def viewRead (pos : Position) (rd : Var) (s : State) : Result :=
  .next ((s.cellRead pos).complete rd (s.readByte pos))

/-- A view write (R69): `v <- t[rs]; CellWrite(idx, v); pc <- pc + 1`. An unwritten operand makes no access. -/
def viewWrite (pos : Position) (rs : Var) (s : State) : Result :=
  withOperand rs s fun v => .next (s.cellWrite pos v).advancePc

/-- A Boolean result (R17): `0x00` or `0x01`. -/
def boolByte (b : Bool) : Byte := if b then 0x01#8 else 0x00#8

/-- A 2-bit enumeration code as a stored result, zero-extended (R17). -/
def codeByte (c : BitVec 2) : Byte := c.setWidth 8

end Sys2Proof.Machine
end

