-- ==== Sys2Proof/Machine/Flags.lean ====
section
/-! DEFINITION. The flags of the block and how they are decoded from a byte (R24): the eight line-status flags (R56), FIFOs-enabled (R48), and the bit set, clear and test they and the enable bits share (R88). The block latches none of them. -/

namespace Sys2Proof.Machine

/-- `v | (1 << b)` (R88). -/
def setBit (b : Nat) (v : Byte) : Byte := v ||| (1#8 <<< b)

/-- `v & ~(1 << b)` (R88). -/
def clearBit (b : Nat) (v : Byte) : Byte := v &&& ~~~(1#8 <<< b)

/-- `v[b]`. -/
def testBit (b : Nat) (v : Byte) : Bool := v.getLsbD b

/-- `zext_8(v[b])` (R88). -/
def bitByte (b : Nat) (v : Byte) : Byte := boolByte (testBit b v)

/-! ## Line status (R56) -/

def flagDataReady (v : Byte) : Bool := testBit 0 v
def flagOverrunError (v : Byte) : Bool := testBit 1 v
def flagParityError (v : Byte) : Bool := testBit 2 v
def flagFramingError (v : Byte) : Bool := testBit 3 v
def flagBreakInterrupt (v : Byte) : Bool := testBit 4 v
def flagThrEmpty (v : Byte) : Bool := testBit 5 v
def flagTransmitterEmpty (v : Byte) : Bool := testBit 6 v
def flagRxFifoError (v : Byte) : Bool := testBit 7 v

/-- R48, R102: FIFOs-enabled, true iff bits 7 and 6 are both 1. -/
def flagFifosEnabled (v : Byte) : Bool := testBit 7 v && testBit 6 v

end Sys2Proof.Machine
end

