-- ==== Sys2Proof/Machine/FifoControl.lean ====
section
/-! DEFINITION. FIFO-control encoders (41_fifo_control.md): pure, no bus access. -/

namespace Sys2Proof.Machine

/-- A FIFO-control byte (R50): the trigger code in bits [7:6], 0 in [5:3], and the enable and reset flags in [2:0]. -/
def fifoByte (level : TriggerLevel) (flags : BitVec 3) : Byte := level.code ++ 0b000#3 ++ flags

/-- R84: FIFO enable and both reset bits set. -/
def execFifoAndReset (rd : Var) (level : TriggerLevel) (s : State) : Result := constOp rd (fifoByte level 0b111#3) s

/-- R85: FIFO enable set, both reset bits clear. -/
def execFifoWithoutReset (rd : Var) (level : TriggerLevel) (s : State) : Result := constOp rd (fifoByte level 0b001#3) s

/-- R86: the trigger level of a FIFO-control value, total over all bytes. -/
def fifoTrigger (v : Byte) : TriggerLevel := TriggerLevel.ofCode (v.extractLsb' 6 2)

/-- R86: the trigger code, `zext_8(v[7:6])`. -/
def execFifoTriggerLevel (rd rs : Var) (s : State) : Result := pureOp rd rs (fun v => codeByte (fifoTrigger v).code) s

end Sys2Proof.Machine
end

