-- ==== Sys2Proof/Machine/InterruptEnable.lean ====
section
/-! DEFINITION. Interrupt-enable bit operations (42_interrupt_enable.md): pure, no bus access; every other bit is kept (R88). -/

namespace Sys2Proof.Machine

/-! The bits of R47. -/

def ierBitRda : Nat := 0
def ierBitThre : Nat := 1
def ierBitRls : Nat := 2
def ierBitMs : Nat := 3

/-- R89 -/
def execIerEnableRda (rd rs : Var) (s : State) : Result := pureOp rd rs (setBit ierBitRda) s
/-- R90 -/
def execIerDisableRda (rd rs : Var) (s : State) : Result := pureOp rd rs (clearBit ierBitRda) s
/-- R91 -/
def execIerIsRdaEnabled (rd rs : Var) (s : State) : Result := pureOp rd rs (bitByte ierBitRda) s

/-- R92 -/
def execIerEnableThre (rd rs : Var) (s : State) : Result := pureOp rd rs (setBit ierBitThre) s
/-- R93 -/
def execIerDisableThre (rd rs : Var) (s : State) : Result := pureOp rd rs (clearBit ierBitThre) s
/-- R94 -/
def execIerIsThreEnabled (rd rs : Var) (s : State) : Result := pureOp rd rs (bitByte ierBitThre) s

/-- R95 -/
def execIerEnableRls (rd rs : Var) (s : State) : Result := pureOp rd rs (setBit ierBitRls) s
/-- R96 -/
def execIerDisableRls (rd rs : Var) (s : State) : Result := pureOp rd rs (clearBit ierBitRls) s
/-- R97 -/
def execIerIsRlsEnabled (rd rs : Var) (s : State) : Result := pureOp rd rs (bitByte ierBitRls) s

/-- R98 -/
def execIerEnableMs (rd rs : Var) (s : State) : Result := pureOp rd rs (setBit ierBitMs) s
/-- R99 -/
def execIerDisableMs (rd rs : Var) (s : State) : Result := pureOp rd rs (clearBit ierBitMs) s
/-- R100 -/
def execIerIsMsEnabled (rd rs : Var) (s : State) : Result := pureOp rd rs (bitByte ierBitMs) s

end Sys2Proof.Machine
end

