-- ==== Sys2Proof/Machine/InterruptIdentification.lean ====
section
/-! DEFINITION. Interrupt-identification decoders (43_interrupt_identification.md): pure, no bus access; the finer decoding only (R103). -/

namespace Sys2Proof.Machine

/-- The IIR pattern of a cause (R49). -/
def causePattern : Cause → BitVec 4
  | .modemStatus => 0b0000#4
  | .transmitterHoldingRegisterEmpty => 0b0010#4
  | .receivedDataAvailable => 0b0100#4
  | .receivedDataTimeout => 0b1100#4
  | .receiverLineStatus => 0b0110#4

/-- The byte an `Option<Cause>` result is stored as (R17, R49): its IIR pattern, zero-extended; `none` is `0001`. -/
def pendingByte : Option Cause → Byte
  | some c => (causePattern c).setWidth 8
  | none => 0x01#8

/-- The table of R49: `some none` is "no interrupt pending", `none` is a pattern outside the table. -/
def decodeCause (c : BitVec 4) : Option (Option Cause) :=
  if c = 0b0001#4 then some none
  else if c = 0b0000#4 then some (some .modemStatus)
  else if c = 0b0010#4 then some (some .transmitterHoldingRegisterEmpty)
  else if c = 0b0100#4 then some (some .receivedDataAvailable)
  else if c = 0b1100#4 then some (some .receivedDataTimeout)
  else if c = 0b0110#4 then some (some .receiverLineStatus)
  else none

/-- R48: the cause code, bits [3:0]; bits [7:4] are ignored. -/
def causeField (v : Byte) : BitVec 4 := v.extractLsb' 0 4

/-- R101: the pending cause; a pattern outside the table raises `IIR_INVALID_CAUSE` with the whole byte (R139), `t[rd]`
and `pc` unchanged. -/
def execIirPendingInterrupts (rd rs : Var) (s : State) : Result :=
  withOperand rs s fun v =>
    match decodeCause (causeField v) with
    | some p => .next (s.complete rd (pendingByte p))
    | none => .next (s.raise (.iirInvalidCause v))

/-- R102: the FIFOs-enabled flag, which the FIFO status view reports too. -/
def execIirFifosEnabled (rd rs : Var) (s : State) : Result := pureOp rd rs (fun v => boolByte (flagFifosEnabled v)) s

end Sys2Proof.Machine
end

