-- ==== Sys2Proof/Machine/LineControl.lean ====
section
/-! DEFINITION. The line-control encoder (44_line_control.md): pure, no bus access; each setter changes only its own field (R118). -/

namespace Sys2Proof.Machine

/-! The single-bit fields of R52. -/

def lcrBitStop : Nat := 2
def lcrBitStick : Nat := 5
def lcrBitBreak : Nat := 6
def lcrBitDlab : Nat := 7

/-- R105: 8 data bits, no parity, one stop bit; stick parity, break control and DLAB clear. -/
def lcrDefaultByte : Byte := 0x03#8

/-- R112: the parity field [4:3] replaced. -/
def lcrWithParity (v : Byte) (p : Parity) : Byte := (v &&& 0xE7#8) ||| (codeByte p.code <<< 3)

/-- R113: the parity mode; the reserved pattern `0b10` reads as `None`. -/
def lcrParityOf (v : Byte) : Parity := Parity.ofField (v.extractLsb' 3 2)

/-- R114: bit 2 cleared for one stop bit, set for more than one. -/
def lcrWithOneStopBit (v : Byte) (one : Bool) : Byte := if one then clearBit lcrBitStop v else setBit lcrBitStop v

/-- R115: one stop bit iff bit 2 is 0. -/
def lcrOneStopBit (v : Byte) : Bool := !(testBit lcrBitStop v)

/-- R116: the length field [1:0] replaced. -/
def lcrWithCharLen (v : Byte) (c : CharLen) : Byte := (v &&& 0xFC#8) ||| codeByte c.code

/-- R117: the character length, total over all bytes. -/
def lcrCharLenOf (v : Byte) : CharLen := CharLen.ofCode (v.extractLsb' 0 2)

/-- R105 -/
def execLcrDefault (rd : Var) (s : State) : Result := constOp rd lcrDefaultByte s
/-- R106 -/
def execLcrEnableDlrAccess (rd rs : Var) (s : State) : Result := pureOp rd rs (setBit lcrBitDlab) s
/-- R107 -/
def execLcrDisableDlrAccess (rd rs : Var) (s : State) : Result := pureOp rd rs (clearBit lcrBitDlab) s
/-- R108 -/
def execLcrEnableBreakControl (rd rs : Var) (s : State) : Result := pureOp rd rs (setBit lcrBitBreak) s
/-- R109 -/
def execLcrDisableBreakControl (rd rs : Var) (s : State) : Result := pureOp rd rs (clearBit lcrBitBreak) s
/-- R110 -/
def execLcrEnableStickParity (rd rs : Var) (s : State) : Result := pureOp rd rs (setBit lcrBitStick) s
/-- R111 -/
def execLcrDisableStickParity (rd rs : Var) (s : State) : Result := pureOp rd rs (clearBit lcrBitStick) s
/-- R112 -/
def execLcrSetParity (rd rs : Var) (p : Parity) (s : State) : Result := pureOp rd rs (fun v => lcrWithParity v p) s
/-- R113 -/
def execLcrParity (rd rs : Var) (s : State) : Result := pureOp rd rs (fun v => codeByte (lcrParityOf v).code) s
/-- R114 -/
def execLcrSetOneStopBit (rd rs : Var) (one : Bool) (s : State) : Result :=
  pureOp rd rs (fun v => lcrWithOneStopBit v one) s
/-- R115 -/
def execLcrIsOneStopBit (rd rs : Var) (s : State) : Result := pureOp rd rs (fun v => boolByte (lcrOneStopBit v)) s
/-- R116 -/
def execLcrSetCharLen (rd rs : Var) (c : CharLen) (s : State) : Result := pureOp rd rs (fun v => lcrWithCharLen v c) s
/-- R117 -/
def execLcrCharLen (rd rs : Var) (s : State) : Result := pureOp rd rs (fun v => codeByte (lcrCharLenOf v).code) s

end Sys2Proof.Machine
end

