-- ==== Sys2Proof/Machine/LineStatus.lean ====
section
/-! DEFINITION. Line-status flag tests (45_line_status.md): pure, each on a stored byte; no bit but the flag's affects the result. -/

namespace Sys2Proof.Machine

/-- R120 -/
def execLsrDataReady (rd rs : Var) (s : State) : Result := pureOp rd rs (fun v => boolByte (flagDataReady v)) s
/-- R121 -/
def execLsrOverrunError (rd rs : Var) (s : State) : Result := pureOp rd rs (fun v => boolByte (flagOverrunError v)) s
/-- R122 -/
def execLsrParityError (rd rs : Var) (s : State) : Result := pureOp rd rs (fun v => boolByte (flagParityError v)) s
/-- R123 -/
def execLsrFramingError (rd rs : Var) (s : State) : Result := pureOp rd rs (fun v => boolByte (flagFramingError v)) s
/-- R124 -/
def execLsrBreakInterrupt (rd rs : Var) (s : State) : Result := pureOp rd rs (fun v => boolByte (flagBreakInterrupt v)) s
/-- R125 -/
def execLsrThrEmpty (rd rs : Var) (s : State) : Result := pureOp rd rs (fun v => boolByte (flagThrEmpty v)) s
/-- R126 -/
def execLsrTransmitterEmpty (rd rs : Var) (s : State) : Result := pureOp rd rs (fun v => boolByte (flagTransmitterEmpty v)) s
/-- R127 -/
def execLsrRxFifoError (rd rs : Var) (s : State) : Result := pureOp rd rs (fun v => boolByte (flagRxFifoError v)) s

end Sys2Proof.Machine
end

