-- ==== Sys2Proof/Machine/RegisterAccess.lean ====
section
/-! DEFINITION. Register-view accesses and `li` (40_register_access.md). Each view operation makes exactly one bus access. -/

namespace Sys2Proof.Machine

/-- R70: `t[rd] <- imm[7:0]`, no access. -/
def execLi (rd : Var) (v : Byte) (s : State) : Result := constOp rd v s

/-- R71: receive data, position 0. -/
def execRbrRead (rd : Var) (s : State) : Result := viewRead .data rd s

/-- R72: transmit data, position 0. -/
def execThrWrite (rs : Var) (s : State) : Result := viewWrite .data rs s

/-- R73: interrupt enable, position 1. -/
def execIerRead (rd : Var) (s : State) : Result := viewRead .ier rd s

/-- R74: interrupt enable, position 1; the whole byte. -/
def execIerWrite (rs : Var) (s : State) : Result := viewWrite .ier rs s

/-- R75: interrupt identification and FIFO status, position 2. -/
def execIirRead (rd : Var) (s : State) : Result := viewRead .iirFcr rd s

/-- R76: FIFO control, position 2. -/
def execFcrWrite (rs : Var) (s : State) : Result := viewWrite .iirFcr rs s

/-- R77: line control, position 3. -/
def execLcrRead (rd : Var) (s : State) : Result := viewRead .lcr rd s

/-- R78: line control, position 3. -/
def execLcrWrite (rs : Var) (s : State) : Result := viewWrite .lcr rs s

/-- R79: modem control, position 4, a raw byte. -/
def execMcrRead (rd : Var) (s : State) : Result := viewRead .mcr rd s

/-- R80: modem control, position 4, a raw byte. -/
def execMcrWrite (rs : Var) (s : State) : Result := viewWrite .mcr rs s

/-- R81: line status, position 5. -/
def execLsrRead (rd : Var) (s : State) : Result := viewRead .lsr rd s

/-- R82: modem status, position 6, a raw byte. -/
def execMsrRead (rd : Var) (s : State) : Result := viewRead .msr rd s

end Sys2Proof.Machine
end

