-- ==== Sys2Proof/Machine/Transfer.lean ====
section
/-! DEFINITION. The divisor sequence and the two drains (46_transfer.md), as the state machines of R129, R131 and R133: the operation's own step loads the machine, and each row of those tables is one further step. -/

namespace Sys2Proof.Machine

/-- `pc <- pc + 1`, phase `Idle`. -/
def State.endSequence (s : State) : State := (s.setPhase .idle).advancePc

/-- The index of the next buffer byte, `base + i`: it does not wrap (R137). -/
def drainIndex (w : Drain) : Nat := w.base.toNat + w.i.toNat

/-- `i <- i + 1`. -/
def drainNext (w : Drain) : Drain := { w with i := w.i + 1#8 }

/-- A drain ends: `t[rd] <- i; pc <- pc + 1`, phase `Idle`. -/
def State.endDrain (s : State) (w : Drain) : State := (s.setVar w.rd w.i).endSequence

/-! ## `write_divisor` (R128, R129) -/

/-- On decode: `d <- imm`, phase `DIV0`. -/
def execWriteDivisor (d : BitVec 16) (s : State) : Result := .next (s.setPhase (.div0 d))

/-- `DIV0`: `L <- CellRead(3)`. -/
def stepDiv0 (d : BitVec 16) (s : State) : Result := .next ((s.cellRead .lcr).setPhase (.div1 d (s.readByte .lcr)))

/-- `DIV1`: `CellWrite(3, L | 0x80)`. -/
def stepDiv1 (d : BitVec 16) (l : Byte) (s : State) : Result := .next ((s.cellWrite .lcr (l ||| 0x80#8)).setPhase (.div2 d l))

/-- `DIV2`: `CellWrite(0, d[7:0])`. -/
def stepDiv2 (d : BitVec 16) (l : Byte) (s : State) : Result :=
  .next ((s.cellWrite .data (d.extractLsb' 0 8)).setPhase (.div3 d l))

/-- `DIV3`: `CellWrite(1, d[15:8])`. -/
def stepDiv3 (d : BitVec 16) (l : Byte) (s : State) : Result :=
  .next ((s.cellWrite .ier (d.extractLsb' 8 8)).setPhase (.div4 d l))

/-- `DIV4`: `CellWrite(3, L)`, `pc <- pc + 1`, `Idle`. `L` is written exactly, whatever its DLAB bit (C2). -/
def stepDiv4 (l : Byte) (s : State) : Result := .next (s.cellWrite .lcr l).endSequence

/-! ## `read` (R130, R131) -/

/-- On decode: `i <- 0`, the window and `rd` from the word, phase `RD_POLL`. -/
def execRead (rd : Var) (base len : Byte) (s : State) : Result :=
  .next (s.setPhase (.rdPoll { rd := rd, base := base, len := len, i := 0#8 }))

/-- `RD_POLL`: the buffer-full test comes first and makes no access; else one line-status read, whose data-ready bit
decides. -/
def stepRdPoll (w : Drain) (s : State) : Result :=
  if w.i = w.len then .next (s.endDrain w)
  else if flagDataReady (s.readByte .lsr) then .next ((s.cellRead .lsr).setPhase (.rdData w))
  else .next ((s.cellRead .lsr).endDrain w)

/-- `RD_DATA`: `BUF[base + i] <- CellRead(0)`, `i <- i + 1`. -/
def stepRdData (w : Drain) (s : State) : Result :=
  if drainIndex w < Config.bufSize then
    .next (((s.cellRead .data).setBuf (drainIndex w) (s.readByte .data)).setPhase (.rdPoll (drainNext w)))
  else .fault .bufferRange

/-! ## `write` (R132, R133) -/

/-- On decode: `i <- 0`, the window and `rd` from the word, phase `WR_POLL`. -/
def execWrite (rd : Var) (base len : Byte) (s : State) : Result :=
  .next (s.setPhase (.wrPoll { rd := rd, base := base, len := len, i := 0#8 }))

/-- `WR_POLL`: the end-of-buffer test comes first and makes no access; else one line-status read, whose
transmit-holding-register-empty bit decides. -/
def stepWrPoll (w : Drain) (s : State) : Result :=
  if w.i = w.len then .next (s.endDrain w)
  else if flagThrEmpty (s.readByte .lsr) then .next ((s.cellRead .lsr).setPhase (.wrData w))
  else .next ((s.cellRead .lsr).endDrain w)

/-- `WR_DATA`: `CellWrite(0, BUF[base + i])`, `i <- i + 1`. -/
def stepWrData (w : Drain) (s : State) : Result :=
  if drainIndex w < Config.bufSize then
    .next ((s.cellWrite .data (s.bufByte (drainIndex w))).setPhase (.wrPoll (drainNext w)))
  else .fault .bufferRange

end Sys2Proof.Machine
end

