-- ==== Sys2Proof/Machine/Dispatch.lean ====
section
/-! DEFINITION. The dispatch: one arm per constructor of `Instr`, each one call of the operation's meaning. -/

namespace Sys2Proof.Machine

def exec (i : Instr) (s : State) : Host.Outcome State Fault Refusal :=
  match i with
  | .li rd v => Sys2Proof.Machine.execLi rd v s
  | .rbrRead rd => Sys2Proof.Machine.execRbrRead rd s
  | .thrWrite rs => Sys2Proof.Machine.execThrWrite rs s
  | .ierRead rd => Sys2Proof.Machine.execIerRead rd s
  | .ierWrite rs => Sys2Proof.Machine.execIerWrite rs s
  | .iirRead rd => Sys2Proof.Machine.execIirRead rd s
  | .fcrWrite rs => Sys2Proof.Machine.execFcrWrite rs s
  | .lcrRead rd => Sys2Proof.Machine.execLcrRead rd s
  | .lcrWrite rs => Sys2Proof.Machine.execLcrWrite rs s
  | .mcrRead rd => Sys2Proof.Machine.execMcrRead rd s
  | .mcrWrite rs => Sys2Proof.Machine.execMcrWrite rs s
  | .lsrRead rd => Sys2Proof.Machine.execLsrRead rd s
  | .msrRead rd => Sys2Proof.Machine.execMsrRead rd s
  | .fifoAndReset rd v => Sys2Proof.Machine.execFifoAndReset rd v s
  | .fifoWithoutReset rd v => Sys2Proof.Machine.execFifoWithoutReset rd v s
  | .fifoTriggerLevel rd rs => Sys2Proof.Machine.execFifoTriggerLevel rd rs s
  | .iirPendingInterrupts rd rs => Sys2Proof.Machine.execIirPendingInterrupts rd rs s
  | .iirFifosEnabled rd rs => Sys2Proof.Machine.execIirFifosEnabled rd rs s
  | .ierEnableRda rd rs => Sys2Proof.Machine.execIerEnableRda rd rs s
  | .ierDisableRda rd rs => Sys2Proof.Machine.execIerDisableRda rd rs s
  | .ierIsRdaEnabled rd rs => Sys2Proof.Machine.execIerIsRdaEnabled rd rs s
  | .ierEnableThre rd rs => Sys2Proof.Machine.execIerEnableThre rd rs s
  | .ierDisableThre rd rs => Sys2Proof.Machine.execIerDisableThre rd rs s
  | .ierIsThreEnabled rd rs => Sys2Proof.Machine.execIerIsThreEnabled rd rs s
  | .ierEnableRls rd rs => Sys2Proof.Machine.execIerEnableRls rd rs s
  | .ierDisableRls rd rs => Sys2Proof.Machine.execIerDisableRls rd rs s
  | .ierIsRlsEnabled rd rs => Sys2Proof.Machine.execIerIsRlsEnabled rd rs s
  | .ierEnableMs rd rs => Sys2Proof.Machine.execIerEnableMs rd rs s
  | .ierDisableMs rd rs => Sys2Proof.Machine.execIerDisableMs rd rs s
  | .ierIsMsEnabled rd rs => Sys2Proof.Machine.execIerIsMsEnabled rd rs s
  | .lcrDefault rd => Sys2Proof.Machine.execLcrDefault rd s
  | .lcrEnableDlrAccess rd rs => Sys2Proof.Machine.execLcrEnableDlrAccess rd rs s
  | .lcrDisableDlrAccess rd rs => Sys2Proof.Machine.execLcrDisableDlrAccess rd rs s
  | .lcrEnableBreakControl rd rs => Sys2Proof.Machine.execLcrEnableBreakControl rd rs s
  | .lcrDisableBreakControl rd rs => Sys2Proof.Machine.execLcrDisableBreakControl rd rs s
  | .lcrEnableStickParity rd rs => Sys2Proof.Machine.execLcrEnableStickParity rd rs s
  | .lcrDisableStickParity rd rs => Sys2Proof.Machine.execLcrDisableStickParity rd rs s
  | .lcrSetParity rd rs v => Sys2Proof.Machine.execLcrSetParity rd rs v s
  | .lcrParity rd rs => Sys2Proof.Machine.execLcrParity rd rs s
  | .lcrSetOneStopBit rd rs v => Sys2Proof.Machine.execLcrSetOneStopBit rd rs v s
  | .lcrIsOneStopBit rd rs => Sys2Proof.Machine.execLcrIsOneStopBit rd rs s
  | .lcrSetCharLen rd rs v => Sys2Proof.Machine.execLcrSetCharLen rd rs v s
  | .lcrCharLen rd rs => Sys2Proof.Machine.execLcrCharLen rd rs s
  | .lsrDataReady rd rs => Sys2Proof.Machine.execLsrDataReady rd rs s
  | .lsrOverrunError rd rs => Sys2Proof.Machine.execLsrOverrunError rd rs s
  | .lsrParityError rd rs => Sys2Proof.Machine.execLsrParityError rd rs s
  | .lsrFramingError rd rs => Sys2Proof.Machine.execLsrFramingError rd rs s
  | .lsrBreakInterrupt rd rs => Sys2Proof.Machine.execLsrBreakInterrupt rd rs s
  | .lsrThrEmpty rd rs => Sys2Proof.Machine.execLsrThrEmpty rd rs s
  | .lsrTransmitterEmpty rd rs => Sys2Proof.Machine.execLsrTransmitterEmpty rd rs s
  | .lsrRxFifoError rd rs => Sys2Proof.Machine.execLsrRxFifoError rd rs s
  | .writeDivisor d => Sys2Proof.Machine.execWriteDivisor d s
  | .read rd base len => Sys2Proof.Machine.execRead rd base len s
  | .write rd base len => Sys2Proof.Machine.execWrite rd base len s

end Sys2Proof.Machine
end

