-- ==== Sys2Proof/Machine/Schedule.lean ====
section
/-! DEFINITION. Which context moves next (R43, R148): after every step any context that can move may be given the turn, so the accesses of different contexts interleave in every way, one access at a time. -/

namespace Sys2Proof.Machine

/-- The choice of who moves next: the scheduled one, else the free value (log 4). -/
def Environment.turnChoice (e : Environment) : Nat :=
  match e.schedule with
  | k :: _ => k
  | [] => Config.nextTurn e.turns

/-- The choice is used up. -/
def Environment.afterTurn (e : Environment) : Environment :=
  { e with schedule := e.schedule.tail, turns := e.turns + 1 }

/-- Every way to give one context the turn and keep the rest: the context that has it first, then a swap with each of the
others. -/
def turnChoices (c : Context) (others : List Context) : List (Context × List Context) :=
  (c, others) :: others.mapIdx fun k o => (o, others.set k c)

/-- The ways that give the turn to a context that has a further step. -/
def liveChoices (s : State) : List (Context × List Context) :=
  (turnChoices s.ctx s.others).filter fun p => p.1.live

/-- Give the turn to a context that can move, by the environment's choice. With one context there is no choice, and with
none that can move the turn stays. -/
def State.handOver (s : State) : State :=
  match s.others with
  | [] => s
  | _ :: _ =>
    let s' := { s with env := s.env.afterTurn }
    match (liveChoices s)[s.env.turnChoice % (liveChoices s).length]? with
    | some p => { s' with ctx := p.1, others := p.2 }
    | none => s'

/-- Hand the turn over after a step that answers a next state. -/
def thenHandOver (r : Result) : Result :=
  match r with
  | .next s => .next s.handOver
  | .fault f => .fault f
  | .refused q => .refused q

end Sys2Proof.Machine
end

