-- ==== Sys2Proof/Machine/Advance.lean ====
section
/-! DEFINITION. One step of the context whose turn it is: the word at `pc` when its transfer machine is idle, else the next row of the machine. -/

namespace Sys2Proof.Machine

/-- Run the word at `pc`: a refused one sets the refusal mark (R65) and is never executed as a no-op. -/
def runWord (s : State) : Result :=
  match s.fetch with
  | some w =>
    match decode w with
    | .instr i => exec i s
    | .refused _ => .next s.refuseWord
  | none => .fault .contextCompleted

/-- One step of the context whose turn it is (R129, R131, R133): at most one bus access. -/
def contextStep (s : State) : Result :=
  match s.ctx.phase with
  | .idle => runWord s
  | .div0 d => stepDiv0 d s
  | .div1 d l => stepDiv1 d l s
  | .div2 d l => stepDiv2 d l s
  | .div3 d l => stepDiv3 d l s
  | .div4 _ l => stepDiv4 l s
  | .rdPoll w => stepRdPoll w s
  | .rdData w => stepRdData w s
  | .wrPoll w => stepWrPoll w s
  | .wrData w => stepWrData w s

/-- What happens when the context whose turn it is has no further step: another one that has is given the turn; when none
has, the machine stops for the reason of the one whose turn it is (R20, R65, R141). DESIGN CHOICE (log 18): the spec does
not say which of several contexts' reasons a stop of the whole machine reports, so `contextCompleted` speaks of that one
context and another one may have failed. -/
def passTurn (reason : Fault) (s : State) : Result :=
  if s.others.any Context.live then .next s.handOver else .fault reason

/-- One step of the machine. A misaligned `BASE` has no run (R36). -/
def machineStep (s : State) : Result :=
  if baseAligned s.params then
    match s.ctx.stopReason with
    | none => thenHandOver (contextStep s)
    | some r => passTurn r s
  else .refused .misalignedBase

/-- The context with a word placed where it fetches next, able to run it. -/
def Context.withWord (c : Context) (w : OpWord) : Context :=
  { c with program := placeWord c.program c.pc w, phase := .idle, faults := [], refused := false }

end Sys2Proof.Machine
end

