-- ==== Sys2Proof/Machine/Step.lean ====
section
/-! DEFINITION. The step, and the placing of a word where the next step fetches. -/

namespace Sys2Proof.Machine

/-- One step of the machine. -/
def step (s : State) : Host.Outcome State Fault Refusal := machineStep s

/-- `s` with the operation word of value `w` (`nbits` bits, all above them 0) where the next step fetches: at `pc` in the
program of the context whose turn it is. That context is made able to fetch: its transfer machine idle, no fault recorded
and no refusal mark; a `BASE` that has no run is put at 0. Nothing else changes (log 11). -/
def State.withFetchWord (s : State) (nbits w : Nat) : State :=
  { s with ctx := s.ctx.withWord (BitVec.ofNat 32 (w % 2 ^ nbits)),
           params := if baseAligned s.params then s.params else { s.params with base := 0 } }

end Sys2Proof.Machine
end

