-- ==== Sys2Proof/Machine/Assembler.lean ====
section
/-! DEFINITION. The assembler notation (R67) and the pseudo-operations (R68), from text lines to operations and words, and the recommended bring-up order (R153). No step uses this file. -/

namespace Sys2Proof.Machine

/-! ## Pseudo-operations (R68): sequences of separate operations, not atomic. -/

/-- `rmw_ier tA, f`: `ier_read tA; f tA, tA; ier_write tA`. -/
def rmwIer (a : Var) (f : Var → Var → Instr) : List Instr := [.ierRead a, f a a, .ierWrite a]

/-- `rmw_lcr tA, f`: `lcr_read tA; f tA, tA; lcr_write tA`. -/
def rmwLcr (a : Var) (f : Var → Var → Instr) : List Instr := [.lcrRead a, f a a, .lcrWrite a]

/-- `fifo_init tA, T`. -/
def fifoInit (a : Var) (level : TriggerLevel) : List Instr := [.fifoAndReset a level, .fcrWrite a]

/-- `fifo_keep tA, T`. -/
def fifoKeep (a : Var) (level : TriggerLevel) : List Instr := [.fifoWithoutReset a level, .fcrWrite a]

/-- `lcr_init tA`. -/
def lcrInit (a : Var) : List Instr := [.lcrDefault a, .lcrWrite a]

/-- R153, the recommended order for bringing the line up: line control with DLAB clear (in `a`), the divisor, the final
framing (already in `framing`), the FIFOs (through `x`), the interrupt-enable value (already in `enable`). -/
def bringUp (a framing x enable : Var) (d : BitVec 16) (level : TriggerLevel) : List Instr :=
  lcrInit a ++ [.writeDivisor d, .lcrWrite framing] ++ fifoInit x level ++ [.ierWrite enable]

/-! ## Text -/

/-- The characters of a line before the comment sign `;`. -/
def beforeComment (l : List Char) : List Char := l.takeWhile (· != ';')

def isBlank (c : Char) : Bool := c == ' ' || c == '\t'

def trimText (l : List Char) : List Char := ((l.dropWhile isBlank).reverse.dropWhile isBlank).reverse

/-- The pieces of a text between commas. -/
def splitCommas : List Char → List (List Char)
  | [] => [[]]
  | c :: rest =>
    match splitCommas rest with
    | [] => [[c]]
    | p :: ps => if c = ',' then [] :: p :: ps else (c :: p) :: ps

/-- The value of a digit in base 10 or 16. -/
def digitValue (base : Nat) (c : Char) : Option Nat :=
  let n := c.toNat
  let v := if '0'.toNat ≤ n ∧ n ≤ '9'.toNat then n - '0'.toNat
    else if 'a'.toNat ≤ n ∧ n ≤ 'f'.toNat then n - 'a'.toNat + 10
    else if 'A'.toNat ≤ n ∧ n ≤ 'F'.toNat then n - 'A'.toNat + 10 else 16
  if v < base then some v else none

def digitsValue (base : Nat) : List Char → Nat → Option Nat
  | [], acc => some acc
  | c :: rest, acc =>
    match digitValue base c with
    | some v => digitsValue base rest (acc * base + v)
    | none => none

/-- R67: numbers are decimal or `0x` hexadecimal. DESIGN CHOICE (log 17): leading zeros and hexadecimal digits of either case
are accepted. -/
def parseNumber : List Char → Option Nat
  | [] => none
  | '0' :: 'x' :: d :: ds => digitsValue 16 (d :: ds) 0
  | d :: ds => digitsValue 10 (d :: ds) 0

/-- R67: variables are written `t0` to `t15`. DESIGN CHOICE (log 17): the rule says nothing of leading zeros, and a spelling
with them (`t007`, `t015`) is accepted as the variable of that number. -/
def parseVar : List Char → Option Var
  | 't' :: d :: ds =>
    match digitsValue 10 (d :: ds) 0 with
    | some n => if h : n < 16 then some ⟨n, h⟩ else none
    | none => none
  | _ => none

def parseByte (l : List Char) : Option Byte :=
  match parseNumber l with
  | some n => if n < 256 then some (BitVec.ofNat 8 n) else none
  | none => none

def parseDivisor (l : List Char) : Option (BitVec 16) :=
  match parseNumber l with
  | some n => if n < 65536 then some (BitVec.ofNat 16 n) else none
  | none => none

/-- A name in a table. -/
def lookupName {α : Type} (table : List (String × α)) (l : List Char) : Option α :=
  (table.find? fun e => e.1.toList == l).map (·.2)

/-! R67: enumeration operands are written by name. -/

def levelNames : List (String × TriggerLevel) := [("T1", .t1), ("T4", .t4), ("T8", .t8), ("T14", .t14)]
def charLenNames : List (String × CharLen) := [("Five", .five), ("Six", .six), ("Seven", .seven), ("Eight", .eight)]
def parityNames : List (String × Parity) := [("None", .noParity), ("Odd", .odd), ("Even", .even)]
def boolNames : List (String × Bool) := [("true", true), ("false", false)]

/-- The operand shapes of R67. -/
inductive AsmForm where
  | rd (k : Var → Instr)
  | rs (k : Var → Instr)
  | rr (k : Var → Var → Instr)
  | ri (k : Var → Byte → Instr)
  | rlevel (k : Var → TriggerLevel → Instr)
  | rrparity (k : Var → Var → Parity → Instr)
  | rrbool (k : Var → Var → Bool → Instr)
  | rrlen (k : Var → Var → CharLen → Instr)
  | i16 (k : BitVec 16 → Instr)
  | window (k : Var → Byte → Byte → Instr)

/-- The operation a shape gives with its written operands. -/
def AsmForm.build : AsmForm → List (List Char) → Option Instr
  | .rd k, [a] => (parseVar a).map k
  | .rs k, [a] => (parseVar a).map k
  | .rr k, [a, b] => do some (k (← parseVar a) (← parseVar b))
  | .ri k, [a, b] => do some (k (← parseVar a) (← parseByte b))
  | .rlevel k, [a, b] => do some (k (← parseVar a) (← lookupName levelNames b))
  | .rrparity k, [a, b, c] => do some (k (← parseVar a) (← parseVar b) (← lookupName parityNames c))
  | .rrbool k, [a, b, c] => do some (k (← parseVar a) (← parseVar b) (← lookupName boolNames c))
  | .rrlen k, [a, b, c] => do some (k (← parseVar a) (← parseVar b) (← lookupName charLenNames c))
  | .i16 k, [a] => (parseDivisor a).map k
  | .window k, [a, b, c] => do some (k (← parseVar a) (← parseByte b) (← parseByte c))
  | _, _ => none

/-! The mnemonics of R63, by family. -/

def viewForms : List (String × AsmForm) :=
  [("li", .ri .li),
   ("rbr_read", .rd .rbrRead),
   ("thr_write", .rs .thrWrite),
   ("ier_read", .rd .ierRead),
   ("ier_write", .rs .ierWrite),
   ("iir_read", .rd .iirRead),
   ("fcr_write", .rs .fcrWrite),
   ("lcr_read", .rd .lcrRead),
   ("lcr_write", .rs .lcrWrite),
   ("mcr_read", .rd .mcrRead),
   ("mcr_write", .rs .mcrWrite),
   ("lsr_read", .rd .lsrRead),
   ("msr_read", .rd .msrRead)]

def fifoForms : List (String × AsmForm) :=
  [("fifo_and_reset", .rlevel .fifoAndReset),
   ("fifo_without_reset", .rlevel .fifoWithoutReset),
   ("fifo_trigger_level", .rr .fifoTriggerLevel)]

def iirForms : List (String × AsmForm) :=
  [("iir_pending_interrupts", .rr .iirPendingInterrupts),
   ("iir_fifos_enabled", .rr .iirFifosEnabled)]

def ierForms : List (String × AsmForm) :=
  [("ier_enable_rda", .rr .ierEnableRda),
   ("ier_disable_rda", .rr .ierDisableRda),
   ("ier_is_rda_enabled", .rr .ierIsRdaEnabled),
   ("ier_enable_thre", .rr .ierEnableThre),
   ("ier_disable_thre", .rr .ierDisableThre),
   ("ier_is_thre_enabled", .rr .ierIsThreEnabled),
   ("ier_enable_rls", .rr .ierEnableRls),
   ("ier_disable_rls", .rr .ierDisableRls),
   ("ier_is_rls_enabled", .rr .ierIsRlsEnabled),
   ("ier_enable_ms", .rr .ierEnableMs),
   ("ier_disable_ms", .rr .ierDisableMs),
   ("ier_is_ms_enabled", .rr .ierIsMsEnabled)]

def lcrForms : List (String × AsmForm) :=
  [("lcr_default", .rd .lcrDefault),
   ("lcr_enable_dlr_access", .rr .lcrEnableDlrAccess),
   ("lcr_disable_dlr_access", .rr .lcrDisableDlrAccess),
   ("lcr_enable_break_control", .rr .lcrEnableBreakControl),
   ("lcr_disable_break_control", .rr .lcrDisableBreakControl),
   ("lcr_enable_stick_parity", .rr .lcrEnableStickParity),
   ("lcr_disable_stick_parity", .rr .lcrDisableStickParity),
   ("lcr_set_parity", .rrparity .lcrSetParity),
   ("lcr_parity", .rr .lcrParity),
   ("lcr_set_one_stop_bit", .rrbool .lcrSetOneStopBit),
   ("lcr_is_one_stop_bit", .rr .lcrIsOneStopBit),
   ("lcr_set_char_len", .rrlen .lcrSetCharLen),
   ("lcr_char_len", .rr .lcrCharLen)]

def lsrForms : List (String × AsmForm) :=
  [("lsr_data_ready", .rr .lsrDataReady),
   ("lsr_overrun_error", .rr .lsrOverrunError),
   ("lsr_parity_error", .rr .lsrParityError),
   ("lsr_framing_error", .rr .lsrFramingError),
   ("lsr_break_interrupt", .rr .lsrBreakInterrupt),
   ("lsr_thr_empty", .rr .lsrThrEmpty),
   ("lsr_transmitter_empty", .rr .lsrTransmitterEmpty),
   ("lsr_rx_fifo_error", .rr .lsrRxFifoError)]

def transferForms : List (String × AsmForm) :=
  [("write_divisor", .i16 .writeDivisor),
   ("read", .window .read),
   ("write", .window .write)]

def allForms : List (String × AsmForm) :=
  viewForms ++ fifoForms ++ iirForms ++ ierForms ++ lcrForms ++ lsrForms ++ transferForms

/-- `rmw_X tA, f [, e]` in the notation: `f` is an `RR` or `RRI` operation of the register's family. -/
def assembleRmw (family : List (String × AsmForm)) (read write : Var → Instr) : List (List Char) → Option (List Instr)
  | a :: f :: e => do
    let v ← parseVar a
    let form ← lookupName family f
    let i ← form.build (a :: a :: e)
    some [read v, i, write v]
  | _ => none

/-- The operations of one mnemonic with its written operands: one operation, or the expansion of a pseudo-operation. -/
def assembleOp (name : List Char) (operands : List (List Char)) : Option (List Instr) :=
  if name == "rmw_ier".toList then assembleRmw ierForms .ierRead .ierWrite operands
  else if name == "rmw_lcr".toList then assembleRmw lcrForms .lcrRead .lcrWrite operands
  else if name == "fifo_init".toList then
    match operands with
    | [a, b] => do some (fifoInit (← parseVar a) (← lookupName levelNames b))
    | _ => none
  else if name == "fifo_keep".toList then
    match operands with
    | [a, b] => do some (fifoKeep (← parseVar a) (← lookupName levelNames b))
    | _ => none
  else if name == "lcr_init".toList then
    match operands with
    | [a] => (parseVar a).map lcrInit
    | _ => none
  else do
    let form ← lookupName allForms name
    let i ← form.build operands
    some [i]

/-- One line of R67: a mnemonic, then its operands separated by commas; text after `;` is a comment. DESIGN CHOICE (log 17):
blanks are spaces and tabs, free around each piece, and a line with nothing else than blanks and a comment gives no
operation. -/
def assembleLine (line : String) : Option (List Instr) :=
  let text := trimText (beforeComment line.toList)
  let name := text.takeWhile fun c => !isBlank c
  let rest := trimText (text.dropWhile fun c => !isBlank c)
  match name with
  | [] => some []
  | _ :: _ => assembleOp name (if rest.isEmpty then [] else (splitCommas rest).map trimText)

/-- A program of R67: its lines in order, as operation words. -/
def assemble : List String → Option (List OpWord)
  | [] => some []
  | l :: ls =>
    match assembleLine l, assemble ls with
    | some is, some ws => some (is.map encode ++ ws)
    | _, _ => none

end Sys2Proof.Machine
end

