-- ==== Sys2Proof/Machine/Sequential.lean ====
section
/-! DEFINITION. The sequential pseudocode of the three transfer operations (R128, R130, R132), the form the spec gives first. Machine/Transfer.lean steps the same accesses one at a time; no step calls this file. -/

namespace Sys2Proof.Machine

/-- R128: the five accesses of `write_divisor`, without a break. -/
def seqWriteDivisor (d : BitVec 16) (s : State) : State :=
  let l := s.readByte .lcr
  let s1 := s.cellRead .lcr
  let s2 := s1.cellWrite .lcr (l ||| 0x80#8)
  let s3 := s2.cellWrite .data (d.extractLsb' 0 8)
  let s4 := s3.cellWrite .ier (d.extractLsb' 8 8)
  (s4.cellWrite .lcr l).advancePc

/-- The loop of R130 with `n` bytes left in the window and `i` moved. -/
def seqReadLoop (rd : Var) (base : Nat) : Nat → Nat → State → State
  | 0, i, s => s.complete rd (BitVec.ofNat 8 i)
  | n + 1, i, s =>
    if flagDataReady (s.readByte .lsr) then
      let s1 := s.cellRead .lsr
      seqReadLoop rd base n (i + 1) ((s1.cellRead .data).setBuf (base + i) (s1.readByte .data))
    else (s.cellRead .lsr).complete rd (BitVec.ofNat 8 i)

/-- R130: `read(rd, base, len)`. -/
def seqRead (rd : Var) (base len : Byte) (s : State) : State := seqReadLoop rd base.toNat len.toNat 0 s

/-- The loop of R132. -/
def seqWriteLoop (rd : Var) (base : Nat) : Nat → Nat → State → State
  | 0, i, s => s.complete rd (BitVec.ofNat 8 i)
  | n + 1, i, s =>
    if flagThrEmpty (s.readByte .lsr) then
      let s1 := s.cellRead .lsr
      seqWriteLoop rd base n (i + 1) (s1.cellWrite .data (s1.bufByte (base + i)))
    else (s.cellRead .lsr).complete rd (BitVec.ofNat 8 i)

/-- R132: `write(rd, base, len)`. -/
def seqWrite (rd : Var) (base len : Byte) (s : State) : State := seqWriteLoop rd base.toNat len.toNat 0 s

end Sys2Proof.Machine
end

