-- ==== Sys2Proof/Safety.lean ====
section
/-! DEFINITION. What claims speak about: the operand an operation reads, the variable a step may write, well-formed contexts and states (the invariant of a run), finished and failed contexts (R141), and the hazard premises of R154 and R155. -/

namespace Sys2Proof.Machine

/-- The variable an operation reads its operand from (R62 `RS`, `RR`, `RRI`); the other formats read none. -/
def operandVar : Instr → Option Var
  | .li _ _ => none
  | .rbrRead _ => none
  | .thrWrite rs => some rs
  | .ierRead _ => none
  | .ierWrite rs => some rs
  | .iirRead _ => none
  | .fcrWrite rs => some rs
  | .lcrRead _ => none
  | .lcrWrite rs => some rs
  | .mcrRead _ => none
  | .mcrWrite rs => some rs
  | .lsrRead _ => none
  | .msrRead _ => none
  | .fifoAndReset _ _ => none
  | .fifoWithoutReset _ _ => none
  | .fifoTriggerLevel _ rs => some rs
  | .iirPendingInterrupts _ rs => some rs
  | .iirFifosEnabled _ rs => some rs
  | .ierEnableRda _ rs => some rs
  | .ierDisableRda _ rs => some rs
  | .ierIsRdaEnabled _ rs => some rs
  | .ierEnableThre _ rs => some rs
  | .ierDisableThre _ rs => some rs
  | .ierIsThreEnabled _ rs => some rs
  | .ierEnableRls _ rs => some rs
  | .ierDisableRls _ rs => some rs
  | .ierIsRlsEnabled _ rs => some rs
  | .ierEnableMs _ rs => some rs
  | .ierDisableMs _ rs => some rs
  | .ierIsMsEnabled _ rs => some rs
  | .lcrDefault _ => none
  | .lcrEnableDlrAccess _ rs => some rs
  | .lcrDisableDlrAccess _ rs => some rs
  | .lcrEnableBreakControl _ rs => some rs
  | .lcrDisableBreakControl _ rs => some rs
  | .lcrEnableStickParity _ rs => some rs
  | .lcrDisableStickParity _ rs => some rs
  | .lcrSetParity _ rs _ => some rs
  | .lcrParity _ rs => some rs
  | .lcrSetOneStopBit _ rs _ => some rs
  | .lcrIsOneStopBit _ rs => some rs
  | .lcrSetCharLen _ rs _ => some rs
  | .lcrCharLen _ rs => some rs
  | .lsrDataReady _ rs => some rs
  | .lsrOverrunError _ rs => some rs
  | .lsrParityError _ rs => some rs
  | .lsrFramingError _ rs => some rs
  | .lsrBreakInterrupt _ rs => some rs
  | .lsrThrEmpty _ rs => some rs
  | .lsrTransmitterEmpty _ rs => some rs
  | .lsrRxFifoError _ rs => some rs
  | .writeDivisor _ => none
  | .read _ _ _ => none
  | .write _ _ _ => none

/-- The variable an operation's own step writes its result to (R62 `RD`, `RI`, `RR`, `RRI`). The two drains have an `rd`
too, but write it when they end (R131, R133): `State.destination` takes it from the transfer machine then. -/
def resultVar : Instr → Option Var
  | .li rd _ => some rd
  | .rbrRead rd => some rd
  | .thrWrite _ => none
  | .ierRead rd => some rd
  | .ierWrite _ => none
  | .iirRead rd => some rd
  | .fcrWrite _ => none
  | .lcrRead rd => some rd
  | .lcrWrite _ => none
  | .mcrRead rd => some rd
  | .mcrWrite _ => none
  | .lsrRead rd => some rd
  | .msrRead rd => some rd
  | .fifoAndReset rd _ => some rd
  | .fifoWithoutReset rd _ => some rd
  | .fifoTriggerLevel rd _ => some rd
  | .iirPendingInterrupts rd _ => some rd
  | .iirFifosEnabled rd _ => some rd
  | .ierEnableRda rd _ => some rd
  | .ierDisableRda rd _ => some rd
  | .ierIsRdaEnabled rd _ => some rd
  | .ierEnableThre rd _ => some rd
  | .ierDisableThre rd _ => some rd
  | .ierIsThreEnabled rd _ => some rd
  | .ierEnableRls rd _ => some rd
  | .ierDisableRls rd _ => some rd
  | .ierIsRlsEnabled rd _ => some rd
  | .ierEnableMs rd _ => some rd
  | .ierDisableMs rd _ => some rd
  | .ierIsMsEnabled rd _ => some rd
  | .lcrDefault rd => some rd
  | .lcrEnableDlrAccess rd _ => some rd
  | .lcrDisableDlrAccess rd _ => some rd
  | .lcrEnableBreakControl rd _ => some rd
  | .lcrDisableBreakControl rd _ => some rd
  | .lcrEnableStickParity rd _ => some rd
  | .lcrDisableStickParity rd _ => some rd
  | .lcrSetParity rd _ _ => some rd
  | .lcrParity rd _ => some rd
  | .lcrSetOneStopBit rd _ _ => some rd
  | .lcrIsOneStopBit rd _ => some rd
  | .lcrSetCharLen rd _ _ => some rd
  | .lcrCharLen rd _ => some rd
  | .lsrDataReady rd _ => some rd
  | .lsrOverrunError rd _ => some rd
  | .lsrParityError rd _ => some rd
  | .lsrFramingError rd _ => some rd
  | .lsrBreakInterrupt rd _ => some rd
  | .lsrThrEmpty rd _ => some rd
  | .lsrTransmitterEmpty rd _ => some rd
  | .lsrRxFifoError rd _ => some rd
  | .writeDivisor _ => none
  | .read _ _ _ => none
  | .write _ _ _ => none

/-- The one variable the next step of the context whose turn it is may write: the result of the operation decoded at `pc`
when the transfer machine is idle, the count of a drain in its polling phase, and none in every other phase. -/
def State.destination (s : State) : Option Var :=
  match s.ctx.phase with
  | .idle =>
    match s.fetch with
    | some w =>
      match decode w with
      | .instr i => resultVar i
      | .refused _ => none
    | none => none
  | .rdPoll w | .wrPoll w => some w.rd
  | .div0 _ | .div1 _ _ | .div2 _ _ | .div3 _ _ | .div4 _ _ | .rdData _ | .wrData _ => none

/-! ## Well-formed contexts and states -/

/-- The word at a context's `pc` decodes to an operation. -/
def Context.runs (c : Context) (i : Instr) : Bool :=
  match c.program[c.pc]? with
  | some w => decide (decode w = .instr i)
  | none => false

/-- R20, R22, R137: while a sequence runs, `pc` is the index of its word, its fields are that word's operands, the window
lies in `BUF`, and no more bytes are moved than the window has: fewer in a data phase. -/
def Context.phaseFits (c : Context) : Bool :=
  match c.phase with
  | .idle => true
  | .div0 d => c.runs (.writeDivisor d)
  | .div1 d _ => c.runs (.writeDivisor d)
  | .div2 d _ => c.runs (.writeDivisor d)
  | .div3 d _ => c.runs (.writeDivisor d)
  | .div4 d _ => c.runs (.writeDivisor d)
  | .rdPoll w => c.runs (.read w.rd w.base w.len) && decide (w.i.toNat ≤ w.len.toNat)
  | .rdData w => c.runs (.read w.rd w.base w.len) && decide (w.i.toNat < w.len.toNat)
  | .wrPoll w => c.runs (.write w.rd w.base w.len) && decide (w.i.toNat ≤ w.len.toNat)
  | .wrData w => c.runs (.write w.rd w.base w.len) && decide (w.i.toNat < w.len.toNat)

/-- R141, R143: a context has at most one outcome besides success, and none while a sequence runs. -/
def Context.recordFits (c : Context) : Bool :=
  match c.faults with
  | [] => !c.refused || decide (c.phase = .idle)
  | [_] => !c.refused && decide (c.phase = .idle)
  | _ :: _ :: _ => false

/-- What every context of a run is: its buffer in canonical form, `pc` at most `N` (R20), its machine and its record as the
rules have them. -/
def Context.wf (c : Context) : Bool :=
  c.buf.wf && decide (c.pc ≤ c.program.length) && c.phaseFits && c.recordFits

/-- R28, R83: the accesses the block makes: every position may be read, and only positions 0 to 4 written. -/
def accessAllowed (a : Access) : Bool :=
  match a.dir, a.pos with
  | .write, .lsr => false
  | .write, .msr => false
  | _, _ => true

/-- The invariant of a run: an aligned `BASE` (R36), well-formed contexts, and a trace of allowed accesses whose words are
`W` bits wide (R21, R37). -/
def State.wf (s : State) : Bool :=
  baseAligned s.params && s.contexts.all Context.wf &&
    s.trace.all fun a => accessAllowed a && decide (cellWidthOf a.word = s.params.width)

/-! ## Ends of a context -/

/-- R20: `pc` is `N` and no sequence runs, with no fault recorded and no refusal. -/
def Context.completed (c : Context) : Bool :=
  c.faults.isEmpty && !c.refused && decide (c.phase = .idle) && decide (c.pc = c.program.length)

/-- R141: a run that ends with a fault recorded or the refusal mark set is a failed one. -/
def Context.failed (c : Context) : Bool := !c.faults.isEmpty || c.refused

/-! ## Hazard premises (R154, R155) -/

/-- The accesses a step made: what the trace of the second state has more than the first's. -/
def newAccesses (s t : State) : List Access := t.trace.drop s.trace.length

/-- The byte last written to line control, if any. The block does not track DLAB (R29): claims read it off the trace. -/
def lastLineControl : List Access → Option Byte
  | [] => none
  | a :: rest =>
    match lastLineControl rest with
    | some v => some v
    | none => if a.dir = .write ∧ a.pos = .lcr then some (cellValue a.word) else none

/-- R155: a context that programs the divisor, in one of the phases `DIV0` to `DIV4`. DESIGN CHOICE (log 19): the rule says
'between the first and the last access' and also 'phases `DIV0` to `DIV4`', and the model takes the phases, so the window
opens at the decode, before the first access is made. -/
def Context.inDivisor (c : Context) : Bool :=
  match c.phase with
  | .div0 _ | .div1 _ _ | .div2 _ _ | .div3 _ _ | .div4 _ _ => true
  | .idle | .rdPoll _ | .rdData _ | .wrPoll _ | .wrData _ => false

/-- R155: what no other context may do meanwhile: write line control, or access positions 0 or 1. -/
def excludedAccess (a : Access) : Bool :=
  decide (a.pos = .data) || decide (a.pos = .ier) || (decide (a.dir = .write) && decide (a.pos = .lcr))

/-- R155, the mutual exclusion the caller owes: while some other context programs the divisor, the step from `s` to `t` makes
no excluded access. -/
def keepsDivisorExclusion (s t : State) : Bool :=
  !(s.others.any Context.inDivisor) || (newAccesses s t).all fun a => !excludedAccess a

/-- DLAB is known to be clear: the line-control byte last written has bit 7 clear. Before the first write of line control
nothing is known of it: construction assumes no device register value (R151). That the trace's last write tells the device's
bit is the model's reading (log 15, DEDUCED). -/
def dlabKnownClear (trace : List Access) : Bool :=
  match lastLineControl trace with
  | some v => !v.getLsbD 7
  | none => false

/-- R154: an access to position 0 or 1 that may reach the divisor latch: one made while DLAB is not known to be clear (log
15, DEDUCED). -/
def dlabHazard (trace : List Access) (a : Access) : Bool :=
  (decide (a.pos = .data) || decide (a.pos = .ier)) && !dlabKnownClear trace

end Sys2Proof.Machine
end

