-- ==== Sys2Proof/Certificates/Slice0/Obligations.lean ====
section
/-! DEFINITION. The statements for the provers, and the words they are stated in. -/

namespace Sys2Proof.Claims

open Sys2Proof.Machine

/-! ## The vocabulary -/

/-- The 4-bit number of a variable. -/
def varBits (x : Var) : BitVec 4 := BitVec.ofNat 4 x.val

/-- An operation word written field by field (R61): `op`, `rd`, `rs`, `imm[15:8]`, `imm[7:0]`. -/
def word (op : BitVec 8) (rd rs : BitVec 4) (hi lo : BitVec 8) : OpWord := op ++ rd ++ rs ++ hi ++ lo

/-- What no operation changes: the parameters, the other contexts, the programs, and, but for a receive drain, every byte of
the caller buffer. -/
structure KeepsSetup (s t : State) : Prop where
  params : t.params = s.params
  others : t.others = s.others
  program : t.ctx.program = s.ctx.program
  bytes : ∀ a, t.bufByte a = s.bufByte a

/-- The transfer machine's phase, the fault record and the refusal mark are as before. -/
structure KeepsRecords (s t : State) : Prop where
  phase : t.ctx.phase = s.ctx.phase
  faults : t.ctx.faults = s.ctx.faults
  refused : t.ctx.refused = s.ctx.refused

def KeepsVars (s t : State) : Prop := ∀ r, t.var r = s.var r

/-- `t[rd] <- v`, and no other variable changes. -/
def SetsVar (s t : State) (rd : Var) (v : Byte) : Prop := t.var rd = .byte v ∧ ∀ r, r ≠ rd → t.var r = s.var r

/-- No bus access, and nothing drawn from the outside world. -/
def NoAccess (s t : State) : Prop := t.trace = s.trace ∧ t.env = s.env

/-- Exactly one bus access, the read of a position, with the word the device answers. -/
def OneRead (s t : State) (pos : Position) : Prop :=
  t.trace = s.trace ++ [{ dir := .read, pos := pos, word := s.answer pos }] ∧
    t.env = { s.env with answers := dropAnswer s.env.answers pos, draws := s.env.draws + 1 }

/-- Exactly one bus access, the write of a byte, zero-extended to `W` bits, to a position. -/
def OneWrite (s t : State) (pos : Position) (v : Byte) : Prop :=
  t.trace = s.trace ++ [{ dir := .write, pos := pos,
                          word := match s.params.width with
                            | .narrow => .narrow v
                            | .wide => .wide (v.zeroExtend 32) }] ∧ t.env = s.env

/-- A pure operation's whole effect: the result in `rd`, the next word, nothing else. -/
def Computes (s t : State) (rd : Var) (v : Byte) : Prop :=
  SetsVar s t rd v ∧ t.ctx.pc = s.ctx.pc + 1 ∧ NoAccess s t ∧ KeepsSetup s t ∧ KeepsRecords s t

/-- A fault's whole effect (R139, R140, R141): one entry with the `pc` of the word; no variable, no access, `pc` kept, and the
context has no further step. -/
def Raises (s t : State) (cause : FaultCause) : Prop :=
  t.ctx.faults = s.ctx.faults ++ [{ cause := cause, pc := s.ctx.pc }] ∧ t.ctx.pc = s.ctx.pc ∧ KeepsVars s t ∧ NoAccess s t ∧
    KeepsSetup s t ∧ t.ctx.phase = s.ctx.phase ∧ t.ctx.refused = s.ctx.refused ∧ t.ctx.stopReason = some .contextFaulted

/-- An operation that takes its operand from `t[rs]`: on a byte `v` it answers a next state with `effect`; on an unwritten
variable it raises `UNWRITTEN_VARIABLE`. -/
def OnOperand (i : Instr) (rs : Var) (effect : State → Byte → State → Prop) : Prop :=
  ∀ s, (∀ v, s.var rs = .byte v → ∃ t, exec i s = .next t ∧ effect s v t) ∧
    (s.var rs = .unwritten → ∃ t, exec i s = .next t ∧ Raises s t (.unwrittenVariable rs))

/-- A format `RR` operation of opcode `op` that computes `f`. -/
def PureRR (op : BitVec 8) (i : Var → Var → Instr) (f : Byte → Byte) : Prop :=
  ∀ rd rs, encode (i rd rs) = word op (varBits rd) (varBits rs) 0 0 ∧
    OnOperand (i rd rs) rs fun s v t => Computes s t rd (f v)

/-- A format `RRI` operation of opcode `op` with an enumeration member of code `code` that computes `f`. -/
def PureRRI (op : BitVec 8) (i : Var → Var → Instr) (code : BitVec 8) (f : Byte → Byte) : Prop :=
  ∀ rd rs, encode (i rd rs) = word op (varBits rd) (varBits rs) 0 code ∧
    OnOperand (i rd rs) rs fun s v t => Computes s t rd (f v)

/-- A format `RI` operation of opcode `op` and immediate `code` whose result is `v`. -/
def ConstRI (op : BitVec 8) (i : Var → Instr) (code : BitVec 8) (v : Byte) : Prop :=
  ∀ rd, encode (i rd) = word op (varBits rd) 0 0 code ∧ ∀ s, ∃ t, exec (i rd) s = .next t ∧ Computes s t rd v

/-- A view read of opcode `op`: one read of the position, its low 8 bits in `t[rd]`. -/
def ReadsView (op : BitVec 8) (i : Var → Instr) (pos : Position) : Prop :=
  ∀ rd, encode (i rd) = word op (varBits rd) 0 0 0 ∧
    ∀ s, ∃ t, exec (i rd) s = .next t ∧ SetsVar s t rd (cellValue (s.answer pos)) ∧ t.ctx.pc = s.ctx.pc + 1 ∧
      OneRead s t pos ∧ KeepsSetup s t ∧ KeepsRecords s t

/-- A view write of opcode `op`: one write of `t[rs]` to the position; without an operand no access. -/
def WritesView (op : BitVec 8) (i : Var → Instr) (pos : Position) : Prop :=
  ∀ rs, encode (i rs) = word op 0 (varBits rs) 0 0 ∧
    OnOperand (i rs) rs fun s v t =>
      KeepsVars s t ∧ t.ctx.pc = s.ctx.pc + 1 ∧ OneWrite s t pos v ∧ KeepsSetup s t ∧ KeepsRecords s t

/-- `zext_8(v[k])`. -/
def bitOf (k : Nat) (v : Byte) : Byte := if v.getLsbD k then 0x01#8 else 0x00#8

/-- `k` steps of the machine. -/
def stepsFrom : Nat → State → Result
  | 0, s => .next s
  | k + 1, s =>
    match step s with
    | .next t => stepsFrom k t
    | .fault f => .fault f
    | .refused q => .refused q

/-- One context, able to step, whose next word decodes to `i`. -/
structure Ready (s : State) (i : Instr) : Prop where
  aligned : baseAligned s.params = true
  alone : s.others = []
  noFault : s.ctx.faults = []
  notRefused : s.ctx.refused = false
  idle : s.ctx.phase = .idle
  fetches : ∃ w, s.ctx.program[s.ctx.pc]? = some w ∧ decode w = .instr i

/-- One row of a transfer machine's table: it answers a next state in the phase given, with the `pc` given. -/
def Row (s : State) (phase : Phase) (pc : Nat) (effect : State → Prop) : Prop :=
  ∃ t, contextStep s = .next t ∧ t.ctx.phase = phase ∧ t.ctx.pc = pc ∧ t.params = s.params ∧ t.others = s.others ∧
    t.ctx.program = s.ctx.program ∧ t.ctx.faults = s.ctx.faults ∧ t.ctx.refused = s.ctx.refused ∧ effect t

def KeepsBytes (s t : State) : Prop := ∀ a, t.bufByte a = s.bufByte a

/-! ### The sequences seen round by round -/

/-- One full round of the receive drain, of byte number `i`: status, data, buffer. -/
def readRound (base i : Nat) (s : State) : State :=
  ((s.cellRead .lsr).cellRead .data).setBuf (base + i) ((s.cellRead .lsr).readByte .data)

def afterReadRounds (s : State) (base : Nat) : Nat → State
  | 0 => s
  | n + 1 => readRound base n (afterReadRounds s base n)

/-- One full round of the transmit drain, of byte number `i`. -/
def writeRound (base i : Nat) (s : State) : State := (s.cellRead .lsr).cellWrite .data (s.bufByte (base + i))

def afterWriteRounds (s : State) (base : Nat) : Nat → State
  | 0 => s
  | n + 1 => writeRound base n (afterWriteRounds s base n)

/-! ### The decoder's checks, by the fields of the word as numbers -/

def opField (w : OpWord) : Nat := w.toNat / 2 ^ 24
def rdField (w : OpWord) : Nat := w.toNat / 2 ^ 20 % 2 ^ 4
def rsField (w : OpWord) : Nat := w.toNat / 2 ^ 16 % 2 ^ 4
def hiField (w : OpWord) : Nat := w.toNat / 2 ^ 8 % 2 ^ 8
def loField (w : OpWord) : Nat := w.toNat % 2 ^ 8

/-- The opcodes of R63 by format (R62). -/
def opcodesRD : List Nat := [0x10, 0x12, 0x14, 0x16, 0x18, 0x1A, 0x1B, 0x40]
def opcodesRS : List Nat := [0x11, 0x13, 0x15, 0x17, 0x19]
def opcodesRR : List Nat :=
  [0x22, 0x28, 0x29, 0x30, 0x31, 0x32, 0x33, 0x34, 0x35, 0x36, 0x37, 0x38, 0x39, 0x3A, 0x3B, 0x41, 0x42, 0x43, 0x44, 0x45,
   0x46, 0x48, 0x4A, 0x4C, 0x50, 0x51, 0x52, 0x53, 0x54, 0x55, 0x56, 0x57]
def opcodesRRI : List Nat := [0x47, 0x49, 0x4B]
def opcodesRI : List Nat := [0x01, 0x20, 0x21]
def opcodesI16 : List Nat := [0x70]
def opcodesX : List Nat := [0x71, 0x72]

/-- R62: the fields of the word that its format does not use are zero. -/
def unusedZero (w : OpWord) : Bool :=
  if opField w ∈ opcodesRD then rsField w == 0 && hiField w == 0 && loField w == 0
  else if opField w ∈ opcodesRS then rdField w == 0 && hiField w == 0 && loField w == 0
  else if opField w ∈ opcodesRR then hiField w == 0 && loField w == 0
  else if opField w ∈ opcodesRRI then hiField w == 0
  else if opField w ∈ opcodesRI then rsField w == 0 && hiField w == 0
  else if opField w ∈ opcodesI16 then rdField w == 0 && rsField w == 0
  else rsField w == 0

/-- R64 check 3. -/
def enumInRange (w : OpWord) : Bool :=
  if opField w = 0x20 ∨ opField w = 0x21 ∨ opField w = 0x4B then decide (loField w ≤ 3)
  else if opField w = 0x47 then decide (loField w ∈ [0, 1, 3])
  else if opField w = 0x49 then decide (loField w ≤ 1)
  else true

/-- R64: the four checks, in their order. -/
def refusal (w : OpWord) : Option DecodeError :=
  if opField w ∉ opcodesRD ++ opcodesRS ++ opcodesRR ++ opcodesRRI ++ opcodesRI ++ opcodesI16 ++ opcodesX then
    some .unknownOpcode
  else if !unusedZero w then some .unusedFieldNonzero
  else if !enumInRange w then some .enumOutOfRange
  else if opField w ∈ opcodesX ∧ 256 < hiField w + loField w then some .windowPastBuffer
  else none

/-! ### Two machines side by side -/

/-- The same machine but for the cell width (and what follows from it): the traces agree in direction, position and
significant byte. -/
structure SameButWidth (s s' : State) : Prop where
  aligned : baseAligned s'.params = baseAligned s.params
  ctx : s'.ctx = s.ctx
  others : s'.others = s.others
  schedule : s'.env.schedule = s.env.schedule
  turns : s'.env.turns = s.env.turns
  trace : s'.trace.map (fun a => (a.dir, a.pos, cellValue a.word)) = s.trace.map fun a => (a.dir, a.pos, cellValue a.word)

/-- For every context in `DIV2` or `DIV3`, the byte last written to line control, by anyone, is the one its `DIV1` wrote: `L`
with bit 7 set. Of the device's latch it says nothing: that the last write tells DLAB is log 15 (DEDUCED). -/
def lineControlAsDiv1Wrote (s : State) : Prop :=
  ∀ c ∈ s.contexts, ∀ d l, c.phase = .div2 d l ∨ c.phase = .div3 d l → lastLineControl s.trace = some (l ||| 0x80#8)

/-! ### The names of R67 and R68, written out from the rules -/

def variableNames : List String :=
  ["t0", "t1", "t2", "t3", "t4", "t5", "t6", "t7", "t8", "t9", "t10", "t11", "t12", "t13", "t14", "t15"]

def triggerNames : List (String × TriggerLevel) := [("T1", .t1), ("T4", .t4), ("T8", .t8), ("T14", .t14)]

/-- The format `RR` operations of the interrupt-enable family. -/
def ierOperations : List (String × (Var → Var → Instr)) :=
  [("ier_enable_rda", .ierEnableRda), ("ier_disable_rda", .ierDisableRda), ("ier_is_rda_enabled", .ierIsRdaEnabled),
   ("ier_enable_thre", .ierEnableThre), ("ier_disable_thre", .ierDisableThre), ("ier_is_thre_enabled", .ierIsThreEnabled),
   ("ier_enable_rls", .ierEnableRls), ("ier_disable_rls", .ierDisableRls), ("ier_is_rls_enabled", .ierIsRlsEnabled),
   ("ier_enable_ms", .ierEnableMs), ("ier_disable_ms", .ierDisableMs), ("ier_is_ms_enabled", .ierIsMsEnabled)]

/-- The format `RR` operations of the line-control family. -/
def lcrOperations : List (String × (Var → Var → Instr)) :=
  [("lcr_enable_dlr_access", .lcrEnableDlrAccess), ("lcr_disable_dlr_access", .lcrDisableDlrAccess),
   ("lcr_enable_break_control", .lcrEnableBreakControl), ("lcr_disable_break_control", .lcrDisableBreakControl),
   ("lcr_enable_stick_parity", .lcrEnableStickParity), ("lcr_disable_stick_parity", .lcrDisableStickParity),
   ("lcr_parity", .lcrParity), ("lcr_is_one_stop_bit", .lcrIsOneStopBit), ("lcr_char_len", .lcrCharLen)]

/-- The format `RRI` operations of the line-control family, with each member. -/
def lcrSetters : List (String × String × (Var → Var → Instr)) :=
  [("lcr_set_parity", "None", (.lcrSetParity · · .noParity)), ("lcr_set_parity", "Odd", (.lcrSetParity · · .odd)),
   ("lcr_set_parity", "Even", (.lcrSetParity · · .even)), ("lcr_set_one_stop_bit", "true", (.lcrSetOneStopBit · · true)),
   ("lcr_set_one_stop_bit", "false", (.lcrSetOneStopBit · · false)), ("lcr_set_char_len", "Five", (.lcrSetCharLen · · .five)),
   ("lcr_set_char_len", "Six", (.lcrSetCharLen · · .six)), ("lcr_set_char_len", "Seven", (.lcrSetCharLen · · .seven)),
   ("lcr_set_char_len", "Eight", (.lcrSetCharLen · · .eight))]

end Sys2Proof.Claims

section Statements

open Sys2Proof Sys2Proof.Machine Sys2Proof.Claims

/-! ## Encoding (30_encoding.md) -/

/-- R61 to R64: no operand bit is dropped. -/
def Obligations.DecodeOfEncodeIsIdentity : Prop :=
  ∀ i : Instr, i.wellFormed = true → decode (encode i) = .instr i

/-- R61 to R66: each accepted word has one meaning, and what the decoder gives is well formed. -/
def Obligations.EncodeOfDecodeIsIdentity : Prop :=
  ∀ (w : OpWord) (i : Instr), decode w = .instr i → encode i = w ∧ i.wellFormed = true

/-- R64: the refusals, in their order, by the fields as numbers; every other word is accepted. -/
def Obligations.DecoderRefusesInOrder : Prop :=
  ∀ w : OpWord, (∀ e, decode w = .refused e ↔ refusal w = some e) ∧
    ((∃ i, decode w = .instr i) ↔ refusal w = none)

/-- R67: the examples of the table, from the text to the word and from the word to the operation. -/
def Obligations.NotationExamplesAssemble : Prop :=
  assemble ["lsr_read t3", "thr_write t2", "lsr_data_ready t4, t3", "lcr_set_parity t0, t0, Even", "fifo_and_reset t1, T14",
      "write_divisor 0x0C00", "read t5, 0, 4"]
    = some [0x1A300000#32, 0x11020000#32, 0x50430000#32, 0x47000003#32, 0x20100003#32, 0x70000C00#32, 0x71500004#32] ∧
  decode 0x1A300000#32 = .instr (.lsrRead 3) ∧ decode 0x11020000#32 = .instr (.thrWrite 2) ∧
  decode 0x50430000#32 = .instr (.lsrDataReady 4 3) ∧ decode 0x47000003#32 = .instr (.lcrSetParity 0 0 .even) ∧
  decode 0x20100003#32 = .instr (.fifoAndReset 1 .t14) ∧ decode 0x70000C00#32 = .instr (.writeDivisor 0x0C00#16) ∧
  decode 0x71500004#32 = .instr (.read 5 0 4) ∧ decode 0x28100000#32 = .instr (.iirPendingInterrupts 1 0) ∧
  decode 0x33220000#32 = .instr (.ierEnableThre 2 2)

/-! ## The step -/

/-- R20, R43, R45: a context that can step, idle, with a word at `pc` that decodes to `i`: the step is `exec i`, and then the
turn is handed over. -/
def Obligations.StepRunsTheDecodedInstruction : Prop :=
  ∀ (s : State) (w : OpWord) (i : Instr), baseAligned s.params = true → s.ctx.faults = [] → s.ctx.refused = false →
    s.ctx.phase = .idle → s.ctx.program[s.ctx.pc]? = some w → decode w = .instr i →
      step s = thenHandOver (exec i s)

/-- R65: a refused word sets the refusal mark, makes no access, writes no variable, keeps `pc`, and the context has no further
step. That each context has a mark of its own is log 5 (DEDUCED), and the hand-over after the step is log 4 (DESIGN
CHOICE). -/
def Obligations.RefusedWordSetsTheMark : Prop :=
  ∀ (s : State) (w : OpWord) (e : DecodeError), baseAligned s.params = true → s.ctx.faults = [] → s.ctx.refused = false →
    s.ctx.phase = .idle → s.ctx.program[s.ctx.pc]? = some w → decode w = .refused e →
      ∃ t, step s = .next t.handOver ∧ t.ctx.refused = true ∧ t.ctx.pc = s.ctx.pc ∧ KeepsVars s t ∧ NoAccess s t ∧
        KeepsSetup s t ∧ t.ctx.faults = s.ctx.faults ∧ t.ctx.phase = .idle ∧ t.ctx.stopReason = some .contextRefused

/-- R20, R65, R141: with no context that can move, the machine stops and says why. -/
def Obligations.StoppedMachineSaysWhy : Prop :=
  ∀ s : State, baseAligned s.params = true → s.others = [] →
    (s.ctx.faults ≠ [] → step s = .fault .contextFaulted) ∧
    (s.ctx.faults = [] → s.ctx.refused = true → step s = .fault .contextRefused) ∧
    (s.ctx.faults = [] → s.ctx.refused = false → s.ctx.phase = .idle → s.ctx.pc = s.ctx.program.length →
      step s = .fault .contextCompleted)

/-- R141, R148: a context without a further step stays as it is, whatever the others do. -/
def Obligations.StoppedContextsStayAsTheyAre : Prop :=
  ∀ (s t : State) (c : Context), step s = .next t → c ∈ s.contexts → c.live = false → c ∈ t.contexts

/-- R43, R148: handing the turn over only changes whose turn it is, and gives it to a context that can move when one can. -/
def Obligations.HandOverOnlyPermutesContexts : Prop :=
  ∀ s : State, s.handOver.contexts.Perm s.contexts ∧ s.handOver.trace = s.trace ∧ s.handOver.params = s.params ∧
    s.handOver.env.answers = s.env.answers ∧ s.handOver.env.draws = s.env.draws ∧
    (s.contexts.any Context.live = true → s.handOver.ctx.live = true)

/-- R148, R23, R45: a context's step leaves the other contexts, the parameters and its program alone, and its record and mark
only grow. -/
def Obligations.ContextStepTouchesOnlyItsOwn : Prop :=
  ∀ s t : State, contextStep s = .next t →
    t.others = s.others ∧ t.params = s.params ∧ t.ctx.program = s.ctx.program ∧ s.ctx.faults <+: t.ctx.faults ∧
      (s.ctx.refused = true → t.ctx.refused = true)

/-- R20: `pc` stays or advances by one, and no variable changes but the step's destination: `rd` of the operation decoded at
`pc`, or the count's variable in a drain's polling phase. -/
def Obligations.PcOnlyAdvancesByOne : Prop :=
  ∀ s t : State, contextStep s = .next t →
    (t.ctx.pc = s.ctx.pc ∨ t.ctx.pc = s.ctx.pc + 1) ∧ ∀ r, s.destination ≠ some r → t.var r = s.var r

/-- R19: only the receive drain writes the caller buffer, and only the byte `base + i`. -/
def Obligations.OnlyTheReceiveDrainWritesTheBuffer : Prop :=
  ∀ s t : State, s.ctx.buf.wf = true → contextStep s = .next t →
    ∀ a, t.bufByte a = s.bufByte a ∨ ∃ w, s.ctx.phase = .rdData w ∧ a = w.base.toNat + w.i.toNat

/-- R21, R37, R83: a step makes at most one access, appended to the trace; it is `W` bits wide and never writes position 5 or
6. -/
def Obligations.StepMakesAtMostOneAllowedAccess : Prop :=
  ∀ s t : State, step s = .next t →
    t.trace = s.trace ∨
      ∃ a, t.trace = s.trace ++ [a] ∧ cellWidthOf a.word = s.params.width ∧
        (a.dir = .write → a.pos ≠ .lsr ∧ a.pos ≠ .msr)

/-- R8, R148: of the outside, a context sees only the device's answers. -/
def Obligations.ContextSeesOnlyTheDevice : Prop :=
  ∀ s s' t : State, s'.ctx = s.ctx → s'.params = s.params → (∀ pos, s'.answer pos = s.answer pos) →
    contextStep s = .next t →
      ∃ t', contextStep s' = .next t' ∧ t'.ctx = t.ctx ∧ newAccesses s' t' = newAccesses s t

/-- R34: whichever width is chosen, the same results and the same `(dir, idx, value(w))`, given the same significant bytes from
the device. -/
def Obligations.CellWidthIsTransparent : Prop :=
  ∀ s s' : State, SameButWidth s s' → (∀ pos, cellValue (s'.answer pos) = cellValue (s.answer pos)) →
    (∀ t, step s = .next t → ∃ t', step s' = .next t' ∧ SameButWidth t t') ∧
    (∀ f, step s = .fault f → step s' = .fault f) ∧ (∀ q, step s = .refused q → step s' = .refused q)

/-- The invariant of a run. -/
def Obligations.StepKeepsTheStateWellFormed : Prop :=
  ∀ s t : State, s.wf = true → step s = .next t → t.wf = true

def Obligations.ResetIsWellFormed : Prop := State.reset.wf = true

/-- R142: in a run nothing else stops a context: while it has a further step, it steps; no buffer access is out of range. -/
def Obligations.LiveContextsAlwaysStep : Prop :=
  ∀ s : State, s.wf = true → s.ctx.live = true → ∃ t, step s = .next t

/-! ## Construction (R25, R36) -/

/-- R25: the state at construction. -/
def Obligations.ConstructionGivesTheInitialState : Prop :=
  ∀ (p : Params) (first : List OpWord × Memory) (further : List (List OpWord × Memory)) (env : Environment) (s : State),
    construct p first further env = some s →
      s.trace = [] ∧ s.params = p ∧ s.ctx.buf = first.2 ∧ s.ctx.program = first.1 ∧
      (∀ c ∈ s.contexts, (∀ r : Var, c.vars[r] = .unwritten) ∧ c.pc = 0 ∧ c.phase = .idle ∧ c.faults = [] ∧ c.refused = false) ∧
      s.others.map (fun c => (c.program, c.buf)) = further

/-- R36: a `BASE` that is no multiple of `STRIDE` is refused at construction and has no run; else every access address is a
multiple of the access's size. -/
def Obligations.MisalignedBaseHasNoRun : Prop :=
  ∀ p : Params,
    (p.base % stride p.width ≠ 0 →
      (∀ first further env, construct p first further env = none) ∧
        ∀ s : State, s.params = p → step s = .refused .misalignedBase) ∧
    (p.base % stride p.width = 0 →
      (∀ first further env, (construct p first further env).isSome = true) ∧
        ∀ pos, positionAddress p pos % stride p.width = 0)

/-- The reset state, its parameters, one empty context and empty buffer being the model's choice (logs 4, 7, 8, 11). -/
def Obligations.ResetHoldsTheConstructionValues : Prop :=
  (∀ r, State.reset.var r = .unwritten) ∧ State.reset.ctx.pc = 0 ∧ State.reset.ctx.phase = .idle ∧ State.reset.trace = [] ∧
    State.reset.ctx.faults = [] ∧ State.reset.ctx.refused = false ∧ State.reset.others = [] ∧ (∀ a, State.reset.bufByte a = 0) ∧
    construct State.reset.params ([], []) [] Environment.start = some State.reset

/-! ## The bus (20_memory.md) -/

/-- R4, R5, R27, R28: strides, the offsets of both layouts, and the region. -/
def Obligations.RegisterMapOffsets : Prop :=
  ∀ p : Params,
    (p.width = .wide → [Position.data, .ier, .iirFcr, .lcr, .mcr, .lsr, .msr].map (positionAddress p)
      = [0x00, 0x04, 0x08, 0x0c, 0x10, 0x14, 0x18].map (p.base + ·)) ∧
    (p.width = .narrow → [Position.data, .ier, .iirFcr, .lcr, .mcr, .lsr, .msr].map (positionAddress p)
      = [0x00, 0x01, 0x02, 0x03, 0x04, 0x05, 0x06].map (p.base + ·)) ∧
    (∀ pos k, k < stride p.width → inRegion p (positionAddress p pos + k) = true)

/-- R35: the address that carries bits [7:0]. -/
def Obligations.SignificantByteLane : Prop :=
  ∀ (p : Params) (pos : Position),
    (p.width = .narrow → significantByteAddress p pos = positionAddress p pos) ∧
    (p.width = .wide → p.endian = .little → significantByteAddress p pos = positionAddress p pos) ∧
    (p.width = .wide → p.endian = .big → significantByteAddress p pos = positionAddress p pos + 3)

/-- R31. -/
def Obligations.CellValueOfByte : Prop :=
  ∀ (w : CellWidth) (x : Byte), cellValue (cellOfByte w x) = x ∧
    cellOfByte .narrow x = .narrow x ∧ cellOfByte .wide x = .wide (x.zeroExtend 32) ∧
    ∀ v : BitVec 32, cellValue (.wide v) = v.extractLsb' 0 8

/-- R32, R33: one access each, of `W / 8` bytes at `BASE + idx * STRIDE`; a read returns the low 8 bits of the answer, a write
replaces the whole word. -/
def Obligations.CellAccessesAreSingle : Prop :=
  ∀ (s : State) (pos : Position) (v : Byte),
    (OneRead s (s.cellRead pos) pos ∧ s.readByte pos = cellValue (s.answer pos) ∧ KeepsSetup s (s.cellRead pos) ∧
      KeepsVars s (s.cellRead pos) ∧ (s.cellRead pos).ctx.pc = s.ctx.pc ∧ KeepsRecords s (s.cellRead pos)) ∧
    (OneWrite s (s.cellWrite pos v) pos v ∧ KeepsSetup s (s.cellWrite pos v) ∧ KeepsVars s (s.cellWrite pos v) ∧
      (s.cellWrite pos v).ctx.pc = s.ctx.pc ∧ KeepsRecords s (s.cellWrite pos v)) ∧
    ∀ dir word, accessSpan s.params { dir := dir, pos := pos, word := word }
      = (s.params.base + positionIndex pos * (cellBits s.params.width / 8), cellBits s.params.width / 8)

/-! ## Register access (40_register_access.md) -/

/-- R70. -/
def Obligations.LiLoadsItsByte : Prop := ∀ v : Byte, ConstRI 0x01 (fun rd => .li rd v) v v

/-- R71, R73, R75, R77, R79, R81, R82. -/
def Obligations.ViewReadsMakeOneRead : Prop :=
  ReadsView 0x10 .rbrRead .data ∧ ReadsView 0x12 .ierRead .ier ∧ ReadsView 0x14 .iirRead .iirFcr ∧
    ReadsView 0x16 .lcrRead .lcr ∧ ReadsView 0x18 .mcrRead .mcr ∧ ReadsView 0x1A .lsrRead .lsr ∧ ReadsView 0x1B .msrRead .msr

/-- R72, R74, R76, R78, R80. -/
def Obligations.ViewWritesMakeOneWrite : Prop :=
  WritesView 0x11 .thrWrite .data ∧ WritesView 0x13 .ierWrite .ier ∧ WritesView 0x15 .fcrWrite .iirFcr ∧
    WritesView 0x17 .lcrWrite .lcr ∧ WritesView 0x19 .mcrWrite .mcr

/-- R161: the accesses of one operation's own step: 1 for a view access that has its operand, 0 for every other one. That
`write_divisor`, `read` and `write` make none in their own step, and all of theirs in the rows that follow, is the model's
reading (log 3, DEDUCED). -/
def Obligations.AccessCountsPerOperation : Prop :=
  ∀ (i : Instr) (s t : State), exec i s = .next t →
    t.trace.length = s.trace.length +
      (if 0x10 ≤ opField (encode i) ∧ opField (encode i) ≤ 0x1B ∧ ∀ rs, operandVar i = some rs → s.var rs ≠ .unwritten
       then 1 else 0)

/-! ## FIFO control (41_fifo_control.md) -/

/-- R84, R85. -/
def Obligations.FifoEncodersBuildTheByte : Prop :=
  ConstRI 0x20 (.fifoAndReset · .t1) 0 0x07 ∧ ConstRI 0x20 (.fifoAndReset · .t4) 1 0x47 ∧
    ConstRI 0x20 (.fifoAndReset · .t8) 2 0x87 ∧ ConstRI 0x20 (.fifoAndReset · .t14) 3 0xC7 ∧
    ConstRI 0x21 (.fifoWithoutReset · .t1) 0 0x01 ∧ ConstRI 0x21 (.fifoWithoutReset · .t4) 1 0x41 ∧
    ConstRI 0x21 (.fifoWithoutReset · .t8) 2 0x81 ∧ ConstRI 0x21 (.fifoWithoutReset · .t14) 3 0xC1

/-- R86: `zext_8(v[7:6])`. -/
def Obligations.FifoTriggerLevelDecodes : Prop := PureRR 0x22 .fifoTriggerLevel fun v => v >>> 6

/-- R87 (derived by the spec from R84 to R86): building a byte and decoding it, as two operations. -/
def Obligations.FifoTriggerRoundTrip : Prop :=
  ∀ (a b : Var) (level : TriggerLevel) (i : Instr) (s : State), i = .fifoAndReset a level ∨ i = .fifoWithoutReset a level →
    ∃ t u, exec i s = .next t ∧ exec (.fifoTriggerLevel b a) t = .next u ∧ u.var b = .byte (level.code.zeroExtend 8)

/-! ## Interrupt enable (42_interrupt_enable.md) -/

/-- R89, R92, R95, R98. -/
def Obligations.IerEnableSetsItsBit : Prop :=
  PureRR 0x30 .ierEnableRda (· ||| 0x01) ∧ PureRR 0x33 .ierEnableThre (· ||| 0x02) ∧
    PureRR 0x36 .ierEnableRls (· ||| 0x04) ∧ PureRR 0x39 .ierEnableMs (· ||| 0x08)

/-- R90, R93, R96, R99. -/
def Obligations.IerDisableClearsItsBit : Prop :=
  PureRR 0x31 .ierDisableRda (· &&& 0xFE) ∧ PureRR 0x34 .ierDisableThre (· &&& 0xFD) ∧
    PureRR 0x37 .ierDisableRls (· &&& 0xFB) ∧ PureRR 0x3A .ierDisableMs (· &&& 0xF7)

/-- R91, R94, R97, R100. -/
def Obligations.IerTestsItsBit : Prop :=
  PureRR 0x32 .ierIsRdaEnabled (bitOf 0) ∧ PureRR 0x35 .ierIsThreEnabled (bitOf 1) ∧
    PureRR 0x38 .ierIsRlsEnabled (bitOf 2) ∧ PureRR 0x3B .ierIsMsEnabled (bitOf 3)

/-- R88, R119 and C3: the laws of bit set and bit clear, for every bit of every byte. -/
def Obligations.EnableDisableLaws : Prop :=
  ∀ (b : Nat) (v : Byte), b < 8 →
    setBit b (setBit b v) = setBit b v ∧ clearBit b (setBit b v) = clearBit b v ∧ setBit b (clearBit b v) = setBit b v ∧
      (clearBit b (setBit b v) = v ↔ v.getLsbD b = false) ∧
      ∀ k, k ≠ b → (setBit b v).getLsbD k = v.getLsbD k ∧ (clearBit b v).getLsbD k = v.getLsbD k

/-! ## Interrupt identification (43_interrupt_identification.md) -/

/-- R101 with the table of R49: the six patterns give themselves, zero-extended; every other pattern raises
`IIR_INVALID_CAUSE` with the whole byte. -/
def Obligations.PendingInterruptsByTheTable : Prop :=
  ∀ rd rs, encode (.iirPendingInterrupts rd rs) = word 0x28 (varBits rd) (varBits rs) 0 0 ∧
    OnOperand (.iirPendingInterrupts rd rs) rs fun s v t =>
      (v &&& 0x0F ∈ [0b0001#8, 0b0000#8, 0b0010#8, 0b0100#8, 0b1100#8, 0b0110#8] → Computes s t rd (v &&& 0x0F)) ∧
      (v &&& 0x0F ∉ [0b0001#8, 0b0000#8, 0b0010#8, 0b0100#8, 0b1100#8, 0b0110#8] → Raises s t (.iirInvalidCause v))

/-- R102. -/
def Obligations.FifosEnabledTestsBothBits : Prop :=
  PureRR 0x29 .iirFifosEnabled fun v => if 0xC0 ≤ v.toNat then 0x01 else 0x00

/-! ## Line control (44_line_control.md) -/

/-- R105. -/
def Obligations.LcrDefaultIsEightNoneOne : Prop :=
  ∀ rd, encode (.lcrDefault rd) = word 0x40 (varBits rd) 0 0 0 ∧
    ∀ s, ∃ t, exec (.lcrDefault rd) s = .next t ∧ Computes s t rd 0x03

/-- R106 to R111. -/
def Obligations.LcrEnablesAndDisables : Prop :=
  PureRR 0x41 .lcrEnableDlrAccess (· ||| 0x80) ∧ PureRR 0x42 .lcrDisableDlrAccess (· &&& 0x7F) ∧
    PureRR 0x43 .lcrEnableBreakControl (· ||| 0x40) ∧ PureRR 0x44 .lcrDisableBreakControl (· &&& 0xBF) ∧
    PureRR 0x45 .lcrEnableStickParity (· ||| 0x20) ∧ PureRR 0x46 .lcrDisableStickParity (· &&& 0xDF)

/-- R112, R114, R116. -/
def Obligations.LcrSettersReplaceTheirField : Prop :=
  PureRRI 0x47 (.lcrSetParity · · .noParity) 0 (· &&& 0xE7) ∧ PureRRI 0x47 (.lcrSetParity · · .odd) 1 (· &&& 0xE7 ||| 0x08) ∧
    PureRRI 0x47 (.lcrSetParity · · .even) 3 (· &&& 0xE7 ||| 0x18) ∧
    PureRRI 0x49 (.lcrSetOneStopBit · · true) 1 (· &&& 0xFB) ∧ PureRRI 0x49 (.lcrSetOneStopBit · · false) 0 (· ||| 0x04) ∧
    PureRRI 0x4B (.lcrSetCharLen · · .five) 0 (· &&& 0xFC) ∧ PureRRI 0x4B (.lcrSetCharLen · · .six) 1 (· &&& 0xFC ||| 1) ∧
    PureRRI 0x4B (.lcrSetCharLen · · .seven) 2 (· &&& 0xFC ||| 2) ∧ PureRRI 0x4B (.lcrSetCharLen · · .eight) 3 (· &&& 0xFC ||| 3)

/-- R113, R115, R117: parity, with the reserved pattern `0b10` read as `None`; one stop bit; length. -/
def Obligations.LcrDecodersReadTheirField : Prop :=
  PureRR 0x48 .lcrParity (fun v => if v &&& 0x18 = 0x08 then 0x01 else if v &&& 0x18 = 0x18 then 0x03 else 0x00) ∧
    PureRR 0x4A .lcrIsOneStopBit (fun v => if v.getLsbD 2 then 0x00 else 0x01) ∧ PureRR 0x4C .lcrCharLen (· &&& 0x03)

/-- R118 (derived by the spec from R112 to R117): each setter sets its own field and nothing else: no
other decode, and none of bits 5, 6 and 7. -/
def Obligations.LcrFieldsAreIndependent : Prop :=
  ∀ (v : Byte) (p : Parity) (one : Bool) (c : CharLen),
    (lcrParityOf (lcrWithParity v p) = p ∧ lcrOneStopBit (lcrWithParity v p) = lcrOneStopBit v ∧
      lcrCharLenOf (lcrWithParity v p) = lcrCharLenOf v) ∧
    (lcrOneStopBit (lcrWithOneStopBit v one) = one ∧ lcrParityOf (lcrWithOneStopBit v one) = lcrParityOf v ∧
      lcrCharLenOf (lcrWithOneStopBit v one) = lcrCharLenOf v) ∧
    (lcrCharLenOf (lcrWithCharLen v c) = c ∧ lcrParityOf (lcrWithCharLen v c) = lcrParityOf v ∧
      lcrOneStopBit (lcrWithCharLen v c) = lcrOneStopBit v) ∧
    (∀ k, k = 5 ∨ k = 6 ∨ k = 7 → (lcrWithParity v p).getLsbD k = v.getLsbD k ∧
      (lcrWithOneStopBit v one).getLsbD k = v.getLsbD k ∧ (lcrWithCharLen v c).getLsbD k = v.getLsbD k) ∧
    ∀ b, b = 5 ∨ b = 6 ∨ b = 7 → ∀ u, u = setBit b v ∨ u = clearBit b v →
      lcrParityOf u = lcrParityOf v ∧ lcrOneStopBit u = lcrOneStopBit v ∧ lcrCharLenOf u = lcrCharLenOf v

/-! ## Line status (45_line_status.md) -/

/-- R120 to R127. -/
def Obligations.LsrTestsItsFlag : Prop :=
  PureRR 0x50 .lsrDataReady (bitOf 0) ∧ PureRR 0x51 .lsrOverrunError (bitOf 1) ∧ PureRR 0x52 .lsrParityError (bitOf 2) ∧
    PureRR 0x53 .lsrFramingError (bitOf 3) ∧ PureRR 0x54 .lsrBreakInterrupt (bitOf 4) ∧ PureRR 0x55 .lsrThrEmpty (bitOf 5) ∧
    PureRR 0x56 .lsrTransmitterEmpty (bitOf 6) ∧ PureRR 0x57 .lsrRxFifoError (bitOf 7)

/-! ## Faults (60_exceptions.md) -/

/-- R140: any operation that reads an unwritten operand raises `UNWRITTEN_VARIABLE` before anything else. -/
def Obligations.UnwrittenOperandRaises : Prop :=
  ∀ (i : Instr) (rs : Var) (s : State), operandVar i = some rs → s.var rs = .unwritten →
    ∃ t, exec i s = .next t ∧ Raises s t (.unwrittenVariable rs)

/-- R139, R140, R142: every operation answers a next state; the record grows only by these two faults, the second only in
`iir_pending_interrupts`, and not by both (R143). -/
def Obligations.OnlyTheTwoFaultsAreRaised : Prop :=
  ∀ (i : Instr) (s : State), ∃ t, exec i s = .next t ∧
    (t.ctx.faults = s.ctx.faults ∨
      (∃ rs, operandVar i = some rs ∧ s.var rs = .unwritten ∧
        t.ctx.faults = s.ctx.faults ++ [{ cause := .unwrittenVariable rs, pc := s.ctx.pc }]) ∨
      (∃ rd rs v, i = .iirPendingInterrupts rd rs ∧ s.var rs = .byte v ∧
        v &&& 0x0F ∉ [0b0001#8, 0b0000#8, 0b0010#8, 0b0100#8, 0b1100#8, 0b0110#8] ∧
        t.ctx.faults = s.ctx.faults ++ [{ cause := .iirInvalidCause v, pc := s.ctx.pc }]))

/-! ## Transfers (46_transfer.md) -/

/-- R129, R131, R133, "On decode": the operation loads the transfer machine and does nothing else. -/
def Obligations.TransferOperationsLoadTheMachine : Prop :=
  (∀ d s, encode (.writeDivisor d) = word 0x70 0 0 (d.extractLsb' 8 8) (d.extractLsb' 0 8) ∧
    ∃ t, exec (.writeDivisor d) s = .next t ∧ t.ctx.phase = .div0 d ∧ t.ctx.pc = s.ctx.pc ∧ KeepsVars s t ∧ NoAccess s t ∧
      KeepsSetup s t ∧ t.ctx.faults = s.ctx.faults ∧ t.ctx.refused = s.ctx.refused) ∧
  (∀ rd base len s, encode (.read rd base len) = word 0x71 (varBits rd) 0 base len ∧
    ∃ t, exec (.read rd base len) s = .next t ∧ t.ctx.phase = .rdPoll ⟨rd, base, len, 0⟩ ∧ t.ctx.pc = s.ctx.pc ∧
      KeepsVars s t ∧ NoAccess s t ∧ KeepsSetup s t ∧ t.ctx.faults = s.ctx.faults ∧ t.ctx.refused = s.ctx.refused) ∧
  (∀ rd base len s, encode (.write rd base len) = word 0x72 (varBits rd) 0 base len ∧
    ∃ t, exec (.write rd base len) s = .next t ∧ t.ctx.phase = .wrPoll ⟨rd, base, len, 0⟩ ∧ t.ctx.pc = s.ctx.pc ∧
      KeepsVars s t ∧ NoAccess s t ∧ KeepsSetup s t ∧ t.ctx.faults = s.ctx.faults ∧ t.ctx.refused = s.ctx.refused)

/-- R129: the rows of `write_divisor`. -/
def Obligations.DivisorRows : Prop :=
  ∀ (s : State) (d : BitVec 16) (l : Byte),
    (s.ctx.phase = .div0 d → Row s (.div1 d (cellValue (s.answer .lcr))) s.ctx.pc fun t =>
      OneRead s t .lcr ∧ KeepsVars s t ∧ KeepsBytes s t) ∧
    (s.ctx.phase = .div1 d l → Row s (.div2 d l) s.ctx.pc fun t =>
      OneWrite s t .lcr (l ||| 0x80) ∧ KeepsVars s t ∧ KeepsBytes s t) ∧
    (s.ctx.phase = .div2 d l → Row s (.div3 d l) s.ctx.pc fun t =>
      OneWrite s t .data (d.extractLsb' 0 8) ∧ KeepsVars s t ∧ KeepsBytes s t) ∧
    (s.ctx.phase = .div3 d l → Row s (.div4 d l) s.ctx.pc fun t =>
      OneWrite s t .ier (d.extractLsb' 8 8) ∧ KeepsVars s t ∧ KeepsBytes s t) ∧
    (s.ctx.phase = .div4 d l → Row s .idle (s.ctx.pc + 1) fun t =>
      OneWrite s t .lcr l ∧ KeepsVars s t ∧ KeepsBytes s t)

/-- R131: the rows of `read`. The one byte stored is `BUF[base + i]`, the data byte. -/
def Obligations.ReadDrainRows : Prop :=
  ∀ (s : State) (w : Drain),
    (s.ctx.phase = .rdPoll w → w.i = w.len → Row s .idle (s.ctx.pc + 1) fun t =>
      NoAccess s t ∧ SetsVar s t w.rd w.i ∧ KeepsBytes s t) ∧
    (s.ctx.phase = .rdPoll w → w.i ≠ w.len → (cellValue (s.answer .lsr)).getLsbD 0 = false →
      Row s .idle (s.ctx.pc + 1) fun t => OneRead s t .lsr ∧ SetsVar s t w.rd w.i ∧ KeepsBytes s t) ∧
    (s.ctx.phase = .rdPoll w → w.i ≠ w.len → (cellValue (s.answer .lsr)).getLsbD 0 = true →
      Row s (.rdData w) s.ctx.pc fun t => OneRead s t .lsr ∧ KeepsVars s t ∧ KeepsBytes s t) ∧
    (s.ctx.phase = .rdData w → s.ctx.buf.wf = true → w.base.toNat + w.i.toNat < 256 →
      Row s (.rdPoll { w with i := w.i + 1 }) s.ctx.pc fun t =>
        OneRead s t .data ∧ KeepsVars s t ∧ t.bufByte (w.base.toNat + w.i.toNat) = cellValue (s.answer .data) ∧
          ∀ a, a ≠ w.base.toNat + w.i.toNat → t.bufByte a = s.bufByte a)

/-- R133: the rows of `write`. -/
def Obligations.WriteDrainRows : Prop :=
  ∀ (s : State) (w : Drain),
    (s.ctx.phase = .wrPoll w → w.i = w.len → Row s .idle (s.ctx.pc + 1) fun t =>
      NoAccess s t ∧ SetsVar s t w.rd w.i ∧ KeepsBytes s t) ∧
    (s.ctx.phase = .wrPoll w → w.i ≠ w.len → (cellValue (s.answer .lsr)).getLsbD 5 = false →
      Row s .idle (s.ctx.pc + 1) fun t => OneRead s t .lsr ∧ SetsVar s t w.rd w.i ∧ KeepsBytes s t) ∧
    (s.ctx.phase = .wrPoll w → w.i ≠ w.len → (cellValue (s.answer .lsr)).getLsbD 5 = true →
      Row s (.wrData w) s.ctx.pc fun t => OneRead s t .lsr ∧ KeepsVars s t ∧ KeepsBytes s t) ∧
    (s.ctx.phase = .wrData w → w.base.toNat + w.i.toNat < 256 →
      Row s (.wrPoll { w with i := w.i + 1 }) s.ctx.pc fun t =>
        OneWrite s t .data (s.bufByte (w.base.toNat + w.i.toNat)) ∧ KeepsVars s t ∧ KeepsBytes s t)

/-- R128: run alone, `write_divisor` makes exactly its five accesses and ends with line control as it read it. The six
steps count the decode as one (log 3, DEDUCED). -/
def Obligations.WriteDivisorMakesFiveAccesses : Prop :=
  ∀ (s : State) (d : BitVec 16), Ready s (.writeDivisor d) →
    ∃ t, stepsFrom 6 s = .next t ∧ t = seqWriteDivisor d s ∧
      t.trace = s.trace ++
        [{ dir := .read, pos := .lcr, word := s.answer .lcr },
         { dir := .write, pos := .lcr, word := cellOfByte s.params.width (cellValue (s.answer .lcr) ||| 0x80) },
         { dir := .write, pos := .data, word := cellOfByte s.params.width (d.extractLsb' 0 8) },
         { dir := .write, pos := .ier, word := cellOfByte s.params.width (d.extractLsb' 8 8) },
         { dir := .write, pos := .lcr, word := cellOfByte s.params.width (cellValue (s.answer .lcr)) }] ∧
      t.ctx.pc = s.ctx.pc + 1 ∧ KeepsVars s t ∧ KeepsSetup s t ∧ KeepsRecords s t

/-- R130: run alone, the receive drain's machine does what the pseudocode does, in at most `2 * len + 2` steps, the decode
among them (log 3, DEDUCED). -/
def Obligations.ReadDrainRefinesThePseudocode : Prop :=
  ∀ (s : State) (rd : Var) (base len : Byte), Ready s (.read rd base len) →
    ∃ k, k ≤ 2 * len.toNat + 2 ∧ stepsFrom k s = .next (seqRead rd base len s)

/-- R132: the same for the transmit drain (the bound in steps: log 3, DEDUCED). -/
def Obligations.WriteDrainRefinesThePseudocode : Prop :=
  ∀ (s : State) (rd : Var) (base len : Byte), Ready s (.write rd base len) →
    ∃ k, k ≤ 2 * len.toNat + 2 ∧ stepsFrom k s = .next (seqWrite rd base len s)

/-- R134: a drain, run alone, ends with the count `c` in `rd`, having made `2c` accesses when `c = len` and `2c + 1` else. The
bound in steps counts the decode as one (log 3, DEDUCED). -/
def Obligations.DrainsAreBounded : Prop :=
  ∀ (s : State) (i : Instr) (rd : Var) (base len : Byte), i = .read rd base len ∨ i = .write rd base len → Ready s i →
    ∃ k t c, stepsFrom k s = .next t ∧ k ≤ 2 * len.toNat + 2 ∧ c ≤ len.toNat ∧ t.var rd = .byte (BitVec.ofNat 8 c) ∧
      t.ctx.phase = .idle ∧ t.ctx.pc = s.ctx.pc + 1 ∧
      t.trace.length = s.trace.length + (if c = len.toNat then 2 * c else 2 * c + 1)

/-- R135: if the first `n` line-status reads of a `read` report data-ready and the next, if there is one, does not, the count is
exactly `n`, the `n` data bytes stand in the window and every other byte of the buffer is untouched. -/
def Obligations.ReadCountIsTheReadyCount : Prop :=
  ∀ (s : State) (rd : Var) (base len : Byte) (n : Nat), s.ctx.buf.wf = true → base.toNat + len.toNat ≤ 256 → n ≤ len.toNat →
    (∀ k, k < n → (cellValue ((afterReadRounds s base.toNat k).answer .lsr)).getLsbD 0 = true) →
    (n < len.toNat → (cellValue ((afterReadRounds s base.toNat n).answer .lsr)).getLsbD 0 = false) →
      (seqRead rd base len s).var rd = .byte (BitVec.ofNat 8 n) ∧
      (∀ a, a < base.toNat ∨ base.toNat + n ≤ a → (seqRead rd base len s).bufByte a = s.bufByte a) ∧
      ∀ k, k < n → (seqRead rd base len s).bufByte (base.toNat + k)
        = cellValue (((afterReadRounds s base.toNat k).cellRead .lsr).answer .data)

/-- R135 for `write`: the count, and the bytes sent, in order, between the status reads. -/
def Obligations.WriteCountIsTheReadyCount : Prop :=
  ∀ (s : State) (rd : Var) (base len : Byte) (n : Nat), n ≤ len.toNat →
    (∀ k, k < n → (cellValue ((afterWriteRounds s base.toNat k).answer .lsr)).getLsbD 5 = true) →
    (n < len.toNat → (cellValue ((afterWriteRounds s base.toNat n).answer .lsr)).getLsbD 5 = false) →
      (seqWrite rd base len s).var rd = .byte (BitVec.ofNat 8 n) ∧
      (∀ a, (seqWrite rd base len s).bufByte a = s.bufByte a) ∧
      (((seqWrite rd base len s).trace.drop s.trace.length).filter fun a => decide (a.dir = .write))
        = (List.range n).map fun k =>
            { dir := .write, pos := .data, word := cellOfByte s.params.width (s.bufByte (base.toNat + k)) }

/-- R136: the drains leave line control, DLAB with it, alone: they reach positions 0 and 5 only. -/
def Obligations.DrainsLeaveLineControlAlone : Prop :=
  ∀ (s t : State) (w : Drain), s.ctx.phase = .rdPoll w ∨ s.ctx.phase = .rdData w ∨ s.ctx.phase = .wrPoll w ∨ s.ctx.phase = .wrData w →
    contextStep s = .next t →
      lastLineControl t.trace = lastLineControl s.trace ∧ ∀ a ∈ newAccesses s t, a.pos = .data ∨ a.pos = .lsr

/-- R155: while the exclusion is kept, line control stays as `DIV1` wrote it until both divisor bytes are written. The premise
takes the window of log 19 (DESIGN CHOICE: open from the decode on). That the divisor bytes then reach the latch follows only
with log 15 (DEDUCED: the last write of line control tells DLAB), and is not stated. -/
def Obligations.LineControlStaysAsDiv1WroteIt : Prop :=
  ∀ s t : State, step s = .next t → keepsDivisorExclusion s t = true → lineControlAsDiv1Wrote s → lineControlAsDiv1Wrote t

/-! ## Hazards (R154) -/

/-- R154, R151: an access to position 0 or 1 is a hazard unless the last write of line control in the trace has bit 7 clear:
right after construction every such access is one, and after `write_divisor` has restored a byte with bit 7 clear none is.
The rules speak of the device's DLAB bit; that it is read off the trace, and may be set until it was last written clear, is
the model's reading (log 15, DEDUCED). -/
def Obligations.DlabHazardUnlessWrittenClear : Prop :=
  (∀ (trace : List Access) (a : Access), dlabHazard trace a = false ↔
    (a.pos ≠ .data ∧ a.pos ≠ .ier) ∨
      ∃ before b after, trace = before ++ b :: after ∧ b.dir = .write ∧ b.pos = .lcr ∧ (cellValue b.word).getLsbD 7 = false ∧
        ∀ c ∈ after, ¬(c.dir = .write ∧ c.pos = .lcr)) ∧
  (∀ p first further env s, construct p first further env = some s →
    ∀ a, a.pos = .data ∨ a.pos = .ier → dlabHazard s.trace a = true) ∧
  ∀ s t d l, s.ctx.phase = .div4 d l → contextStep s = .next t → l.getLsbD 7 = false → ∀ a, dlabHazard t.trace a = false

/-! ## Notation (R68) -/

/-- R68: the pseudo-operations, with any text that is read as a variable, every operation of the family, and every member:
first one whole line of each, then the expansion of each from its pieces. -/
def Obligations.PseudoOperationsExpand : Prop :=
  (assembleLine "rmw_ier t2, ier_enable_rda" = some [.ierRead 2, .ierEnableRda 2 2, .ierWrite 2] ∧
    assembleLine "rmw_lcr t0, lcr_set_parity, Even" = some [.lcrRead 0, .lcrSetParity 0 0 .even, .lcrWrite 0] ∧
    assembleLine "fifo_init t1, T14" = some [.fifoAndReset 1 .t14, .fcrWrite 1] ∧
    assembleLine "fifo_keep t1, T8" = some [.fifoWithoutReset 1 .t8, .fcrWrite 1] ∧
    assembleLine "lcr_init t15 ; DLAB clear" = some [.lcrDefault 15, .lcrWrite 15]) ∧
  variableNames.map (fun x => parseVar x.toList) = (List.finRange 16).map some ∧
  ∀ (a : Var) (x : List Char), parseVar x = some a →
    (∀ e ∈ ierOperations, assembleOp "rmw_ier".toList [x, e.1.toList] = some [.ierRead a, e.2 a a, .ierWrite a]) ∧
    (∀ e ∈ lcrOperations, assembleOp "rmw_lcr".toList [x, e.1.toList] = some [.lcrRead a, e.2 a a, .lcrWrite a]) ∧
    (∀ e ∈ lcrSetters,
      assembleOp "rmw_lcr".toList [x, e.1.toList, e.2.1.toList] = some [.lcrRead a, e.2.2 a a, .lcrWrite a]) ∧
    (∀ e ∈ triggerNames,
      assembleOp "fifo_init".toList [x, e.1.toList] = some [.fifoAndReset a e.2, .fcrWrite a] ∧
      assembleOp "fifo_keep".toList [x, e.1.toList] = some [.fifoWithoutReset a e.2, .fcrWrite a]) ∧
    assembleOp "lcr_init".toList [x] = some [.lcrDefault a, .lcrWrite a]

end Statements
end

