-- ==== Sys2Proof/Laws/Encoding.lean ====
section
/-! SUPPORT. The fields of a word and the word of its fields are inverse to each other (R61). -/

namespace Sys2Proof

theorem toNat_append_eq {n m : Nat} (x : BitVec n) (y : BitVec m) : (x ++ y).toNat = x.toNat * 2 ^ m + y.toNat := by
  rw [BitVec.toNat_append, ← Nat.shiftLeft_add_eq_or_of_lt y.isLt, Nat.shiftLeft_eq]

/-- The word of four fields as a number. -/
theorem Fields.toNat_toWord (f : Fields) :
    f.toWord.toNat = ((f.op.toNat * 2 ^ 4 + f.rd.toNat) * 2 ^ 4 + f.rs.toNat) * 2 ^ 16 + f.imm.toNat := by
  show (f.op ++ f.rd ++ f.rs ++ f.imm).toNat = _
  rw [toNat_append_eq, toNat_append_eq, toNat_append_eq]

theorem Fields.ofWord_toWord (f : Fields) : Fields.ofWord f.toWord = f := by
  have h := f.toNat_toWord
  have h1 := f.op.isLt
  have h2 := f.rd.isLt
  have h3 := f.rs.isLt
  have h4 := f.imm.isLt
  obtain ⟨op, rd, rs, imm⟩ := f
  simp only [Fields.ofWord, Fields.mk.injEq]
  refine ⟨?_, ?_, ?_, ?_⟩ <;> apply BitVec.eq_of_toNat_eq <;>
    simp only [BitVec.extractLsb'_toNat, h, Nat.shiftRight_eq_div_pow] <;> omega

theorem Fields.toWord_ofWord (w : OpWord) : (Fields.ofWord w).toWord = w := by
  have h := w.isLt
  apply BitVec.eq_of_toNat_eq
  simp only [Fields.toNat_toWord, Fields.ofWord, BitVec.extractLsb'_toNat, Nat.shiftRight_eq_div_pow]
  omega

/-- The two bytes of an immediate are the halves of the two bytes put together. -/
theorem Fields.immHi_append (f : Fields) (hi lo : Byte) (h : f.imm = hi ++ lo) : f.immHi = hi := by
  have h' : f.imm.toNat = hi.toNat * 2 ^ 8 + lo.toNat := by rw [h, toNat_append_eq]
  have h1 := lo.isLt
  have h2 := hi.isLt
  apply BitVec.eq_of_toNat_eq
  simp only [Fields.immHi, BitVec.extractLsb'_toNat, h', Nat.shiftRight_eq_div_pow]
  omega

theorem Fields.immLo_append (f : Fields) (hi lo : Byte) (h : f.imm = hi ++ lo) : f.immLo = lo := by
  have h' : f.imm.toNat = hi.toNat * 2 ^ 8 + lo.toNat := by rw [h, toNat_append_eq]
  have h1 := lo.isLt
  apply BitVec.eq_of_toNat_eq
  simp only [Fields.immLo, BitVec.extractLsb'_toNat, h', Nat.shiftRight_eq_div_pow]
  omega

/-- An immediate is its two bytes. -/
theorem Fields.imm_eq_append (f : Fields) : f.imm = f.immHi ++ f.immLo := by
  have h := f.imm.isLt
  apply BitVec.eq_of_toNat_eq
  rw [toNat_append_eq]
  simp only [Fields.immHi, Fields.immLo, BitVec.extractLsb'_toNat, Nat.shiftRight_eq_div_pow]
  omega

end Sys2Proof
end

