-- ==== Sys2Proof/Laws/State.lean ====
section
/-! SUPPORT. One lemma per field per update of the state, true by `rfl`, and the few about reading a variable after an update, so that no later proof unfolds a record update. -/

namespace Sys2Proof.Machine

variable (s : State)

/-! ### `setVar` -/

@[simp] theorem State.setVar_params (r : Var) (v : Byte) : (s.setVar r v).params = s.params := rfl
@[simp] theorem State.setVar_others (r : Var) (v : Byte) : (s.setVar r v).others = s.others := rfl
@[simp] theorem State.setVar_trace (r : Var) (v : Byte) : (s.setVar r v).trace = s.trace := rfl
@[simp] theorem State.setVar_env (r : Var) (v : Byte) : (s.setVar r v).env = s.env := rfl
@[simp] theorem State.setVar_ctx_vars (r : Var) (v : Byte) : (s.setVar r v).ctx.vars = s.ctx.vars.set r (.byte v) := rfl
@[simp] theorem State.setVar_ctx_buf (r : Var) (v : Byte) : (s.setVar r v).ctx.buf = s.ctx.buf := rfl
@[simp] theorem State.setVar_ctx_program (r : Var) (v : Byte) : (s.setVar r v).ctx.program = s.ctx.program := rfl
@[simp] theorem State.setVar_ctx_pc (r : Var) (v : Byte) : (s.setVar r v).ctx.pc = s.ctx.pc := rfl
@[simp] theorem State.setVar_ctx_phase (r : Var) (v : Byte) : (s.setVar r v).ctx.phase = s.ctx.phase := rfl
@[simp] theorem State.setVar_ctx_faults (r : Var) (v : Byte) : (s.setVar r v).ctx.faults = s.ctx.faults := rfl
@[simp] theorem State.setVar_ctx_refused (r : Var) (v : Byte) : (s.setVar r v).ctx.refused = s.ctx.refused := rfl

/-! ### `advancePc` -/

@[simp] theorem State.advancePc_params : (s.advancePc).params = s.params := rfl
@[simp] theorem State.advancePc_others : (s.advancePc).others = s.others := rfl
@[simp] theorem State.advancePc_trace : (s.advancePc).trace = s.trace := rfl
@[simp] theorem State.advancePc_env : (s.advancePc).env = s.env := rfl
@[simp] theorem State.advancePc_ctx_vars : (s.advancePc).ctx.vars = s.ctx.vars := rfl
@[simp] theorem State.advancePc_ctx_buf : (s.advancePc).ctx.buf = s.ctx.buf := rfl
@[simp] theorem State.advancePc_ctx_program : (s.advancePc).ctx.program = s.ctx.program := rfl
@[simp] theorem State.advancePc_ctx_pc : (s.advancePc).ctx.pc = s.ctx.pc + 1 := rfl
@[simp] theorem State.advancePc_ctx_phase : (s.advancePc).ctx.phase = s.ctx.phase := rfl
@[simp] theorem State.advancePc_ctx_faults : (s.advancePc).ctx.faults = s.ctx.faults := rfl
@[simp] theorem State.advancePc_ctx_refused : (s.advancePc).ctx.refused = s.ctx.refused := rfl

/-! ### `setPhase` -/

@[simp] theorem State.setPhase_params (p : Phase) : (s.setPhase p).params = s.params := rfl
@[simp] theorem State.setPhase_others (p : Phase) : (s.setPhase p).others = s.others := rfl
@[simp] theorem State.setPhase_trace (p : Phase) : (s.setPhase p).trace = s.trace := rfl
@[simp] theorem State.setPhase_env (p : Phase) : (s.setPhase p).env = s.env := rfl
@[simp] theorem State.setPhase_ctx_vars (p : Phase) : (s.setPhase p).ctx.vars = s.ctx.vars := rfl
@[simp] theorem State.setPhase_ctx_buf (p : Phase) : (s.setPhase p).ctx.buf = s.ctx.buf := rfl
@[simp] theorem State.setPhase_ctx_program (p : Phase) : (s.setPhase p).ctx.program = s.ctx.program := rfl
@[simp] theorem State.setPhase_ctx_pc (p : Phase) : (s.setPhase p).ctx.pc = s.ctx.pc := rfl
@[simp] theorem State.setPhase_ctx_phase (p : Phase) : (s.setPhase p).ctx.phase = p := rfl
@[simp] theorem State.setPhase_ctx_faults (p : Phase) : (s.setPhase p).ctx.faults = s.ctx.faults := rfl
@[simp] theorem State.setPhase_ctx_refused (p : Phase) : (s.setPhase p).ctx.refused = s.ctx.refused := rfl

/-! ### `setBuf` -/

@[simp] theorem State.setBuf_params (a : Nat) (b : Byte) : (s.setBuf a b).params = s.params := rfl
@[simp] theorem State.setBuf_others (a : Nat) (b : Byte) : (s.setBuf a b).others = s.others := rfl
@[simp] theorem State.setBuf_trace (a : Nat) (b : Byte) : (s.setBuf a b).trace = s.trace := rfl
@[simp] theorem State.setBuf_env (a : Nat) (b : Byte) : (s.setBuf a b).env = s.env := rfl
@[simp] theorem State.setBuf_ctx_vars (a : Nat) (b : Byte) : (s.setBuf a b).ctx.vars = s.ctx.vars := rfl
@[simp] theorem State.setBuf_ctx_buf (a : Nat) (b : Byte) : (s.setBuf a b).ctx.buf = memWrite s.ctx.buf a b := rfl
@[simp] theorem State.setBuf_ctx_program (a : Nat) (b : Byte) : (s.setBuf a b).ctx.program = s.ctx.program := rfl
@[simp] theorem State.setBuf_ctx_pc (a : Nat) (b : Byte) : (s.setBuf a b).ctx.pc = s.ctx.pc := rfl
@[simp] theorem State.setBuf_ctx_phase (a : Nat) (b : Byte) : (s.setBuf a b).ctx.phase = s.ctx.phase := rfl
@[simp] theorem State.setBuf_ctx_faults (a : Nat) (b : Byte) : (s.setBuf a b).ctx.faults = s.ctx.faults := rfl
@[simp] theorem State.setBuf_ctx_refused (a : Nat) (b : Byte) : (s.setBuf a b).ctx.refused = s.ctx.refused := rfl

/-! ### `emit` -/

@[simp] theorem State.emit_params (dir : Direction) (pos : Position) (w : CellWord) : (s.emit dir pos w).params = s.params := rfl
@[simp] theorem State.emit_others (dir : Direction) (pos : Position) (w : CellWord) : (s.emit dir pos w).others = s.others := rfl
@[simp] theorem State.emit_trace (dir : Direction) (pos : Position) (w : CellWord) : (s.emit dir pos w).trace = s.trace ++ [{ dir := dir, pos := pos, word := w }] := rfl
@[simp] theorem State.emit_env (dir : Direction) (pos : Position) (w : CellWord) : (s.emit dir pos w).env = s.env := rfl
@[simp] theorem State.emit_ctx_vars (dir : Direction) (pos : Position) (w : CellWord) : (s.emit dir pos w).ctx.vars = s.ctx.vars := rfl
@[simp] theorem State.emit_ctx_buf (dir : Direction) (pos : Position) (w : CellWord) : (s.emit dir pos w).ctx.buf = s.ctx.buf := rfl
@[simp] theorem State.emit_ctx_program (dir : Direction) (pos : Position) (w : CellWord) : (s.emit dir pos w).ctx.program = s.ctx.program := rfl
@[simp] theorem State.emit_ctx_pc (dir : Direction) (pos : Position) (w : CellWord) : (s.emit dir pos w).ctx.pc = s.ctx.pc := rfl
@[simp] theorem State.emit_ctx_phase (dir : Direction) (pos : Position) (w : CellWord) : (s.emit dir pos w).ctx.phase = s.ctx.phase := rfl
@[simp] theorem State.emit_ctx_faults (dir : Direction) (pos : Position) (w : CellWord) : (s.emit dir pos w).ctx.faults = s.ctx.faults := rfl
@[simp] theorem State.emit_ctx_refused (dir : Direction) (pos : Position) (w : CellWord) : (s.emit dir pos w).ctx.refused = s.ctx.refused := rfl

/-! ### `drawAnswer` -/

@[simp] theorem State.drawAnswer_params (pos : Position) : (s.drawAnswer pos).params = s.params := rfl
@[simp] theorem State.drawAnswer_others (pos : Position) : (s.drawAnswer pos).others = s.others := rfl
@[simp] theorem State.drawAnswer_trace (pos : Position) : (s.drawAnswer pos).trace = s.trace := rfl
@[simp] theorem State.drawAnswer_env (pos : Position) : (s.drawAnswer pos).env = { s.env with answers := dropAnswer s.env.answers pos, draws := s.env.draws + 1 } := rfl
@[simp] theorem State.drawAnswer_ctx_vars (pos : Position) : (s.drawAnswer pos).ctx.vars = s.ctx.vars := rfl
@[simp] theorem State.drawAnswer_ctx_buf (pos : Position) : (s.drawAnswer pos).ctx.buf = s.ctx.buf := rfl
@[simp] theorem State.drawAnswer_ctx_program (pos : Position) : (s.drawAnswer pos).ctx.program = s.ctx.program := rfl
@[simp] theorem State.drawAnswer_ctx_pc (pos : Position) : (s.drawAnswer pos).ctx.pc = s.ctx.pc := rfl
@[simp] theorem State.drawAnswer_ctx_phase (pos : Position) : (s.drawAnswer pos).ctx.phase = s.ctx.phase := rfl
@[simp] theorem State.drawAnswer_ctx_faults (pos : Position) : (s.drawAnswer pos).ctx.faults = s.ctx.faults := rfl
@[simp] theorem State.drawAnswer_ctx_refused (pos : Position) : (s.drawAnswer pos).ctx.refused = s.ctx.refused := rfl

/-! ### `raise` -/

@[simp] theorem State.raise_params (c : FaultCause) : (s.raise c).params = s.params := rfl
@[simp] theorem State.raise_others (c : FaultCause) : (s.raise c).others = s.others := rfl
@[simp] theorem State.raise_trace (c : FaultCause) : (s.raise c).trace = s.trace := rfl
@[simp] theorem State.raise_env (c : FaultCause) : (s.raise c).env = s.env := rfl
@[simp] theorem State.raise_ctx_vars (c : FaultCause) : (s.raise c).ctx.vars = s.ctx.vars := rfl
@[simp] theorem State.raise_ctx_buf (c : FaultCause) : (s.raise c).ctx.buf = s.ctx.buf := rfl
@[simp] theorem State.raise_ctx_program (c : FaultCause) : (s.raise c).ctx.program = s.ctx.program := rfl
@[simp] theorem State.raise_ctx_pc (c : FaultCause) : (s.raise c).ctx.pc = s.ctx.pc := rfl
@[simp] theorem State.raise_ctx_phase (c : FaultCause) : (s.raise c).ctx.phase = s.ctx.phase := rfl
@[simp] theorem State.raise_ctx_faults (c : FaultCause) : (s.raise c).ctx.faults = s.ctx.faults ++ [{ cause := c, pc := s.ctx.pc }] := rfl
@[simp] theorem State.raise_ctx_refused (c : FaultCause) : (s.raise c).ctx.refused = s.ctx.refused := rfl

/-! ### `refuseWord` -/

@[simp] theorem State.refuseWord_params : (s.refuseWord).params = s.params := rfl
@[simp] theorem State.refuseWord_others : (s.refuseWord).others = s.others := rfl
@[simp] theorem State.refuseWord_trace : (s.refuseWord).trace = s.trace := rfl
@[simp] theorem State.refuseWord_env : (s.refuseWord).env = s.env := rfl
@[simp] theorem State.refuseWord_ctx_vars : (s.refuseWord).ctx.vars = s.ctx.vars := rfl
@[simp] theorem State.refuseWord_ctx_buf : (s.refuseWord).ctx.buf = s.ctx.buf := rfl
@[simp] theorem State.refuseWord_ctx_program : (s.refuseWord).ctx.program = s.ctx.program := rfl
@[simp] theorem State.refuseWord_ctx_pc : (s.refuseWord).ctx.pc = s.ctx.pc := rfl
@[simp] theorem State.refuseWord_ctx_phase : (s.refuseWord).ctx.phase = s.ctx.phase := rfl
@[simp] theorem State.refuseWord_ctx_faults : (s.refuseWord).ctx.faults = s.ctx.faults := rfl
@[simp] theorem State.refuseWord_ctx_refused : (s.refuseWord).ctx.refused = true := rfl

/-! ### `cellRead` -/

@[simp] theorem State.cellRead_params (pos : Position) : (s.cellRead pos).params = s.params := rfl
@[simp] theorem State.cellRead_others (pos : Position) : (s.cellRead pos).others = s.others := rfl
@[simp] theorem State.cellRead_trace (pos : Position) : (s.cellRead pos).trace = s.trace ++ [{ dir := .read, pos := pos, word := s.answer pos }] := rfl
@[simp] theorem State.cellRead_env (pos : Position) : (s.cellRead pos).env = { s.env with answers := dropAnswer s.env.answers pos, draws := s.env.draws + 1 } := rfl
@[simp] theorem State.cellRead_ctx_vars (pos : Position) : (s.cellRead pos).ctx.vars = s.ctx.vars := rfl
@[simp] theorem State.cellRead_ctx_buf (pos : Position) : (s.cellRead pos).ctx.buf = s.ctx.buf := rfl
@[simp] theorem State.cellRead_ctx_program (pos : Position) : (s.cellRead pos).ctx.program = s.ctx.program := rfl
@[simp] theorem State.cellRead_ctx_pc (pos : Position) : (s.cellRead pos).ctx.pc = s.ctx.pc := rfl
@[simp] theorem State.cellRead_ctx_phase (pos : Position) : (s.cellRead pos).ctx.phase = s.ctx.phase := rfl
@[simp] theorem State.cellRead_ctx_faults (pos : Position) : (s.cellRead pos).ctx.faults = s.ctx.faults := rfl
@[simp] theorem State.cellRead_ctx_refused (pos : Position) : (s.cellRead pos).ctx.refused = s.ctx.refused := rfl

/-! ### `cellWrite` -/

@[simp] theorem State.cellWrite_params (pos : Position) (v : Byte) : (s.cellWrite pos v).params = s.params := rfl
@[simp] theorem State.cellWrite_others (pos : Position) (v : Byte) : (s.cellWrite pos v).others = s.others := rfl
@[simp] theorem State.cellWrite_trace (pos : Position) (v : Byte) : (s.cellWrite pos v).trace = s.trace ++ [{ dir := .write, pos := pos, word := cellOfByte s.params.width v }] := rfl
@[simp] theorem State.cellWrite_env (pos : Position) (v : Byte) : (s.cellWrite pos v).env = s.env := rfl
@[simp] theorem State.cellWrite_ctx_vars (pos : Position) (v : Byte) : (s.cellWrite pos v).ctx.vars = s.ctx.vars := rfl
@[simp] theorem State.cellWrite_ctx_buf (pos : Position) (v : Byte) : (s.cellWrite pos v).ctx.buf = s.ctx.buf := rfl
@[simp] theorem State.cellWrite_ctx_program (pos : Position) (v : Byte) : (s.cellWrite pos v).ctx.program = s.ctx.program := rfl
@[simp] theorem State.cellWrite_ctx_pc (pos : Position) (v : Byte) : (s.cellWrite pos v).ctx.pc = s.ctx.pc := rfl
@[simp] theorem State.cellWrite_ctx_phase (pos : Position) (v : Byte) : (s.cellWrite pos v).ctx.phase = s.ctx.phase := rfl
@[simp] theorem State.cellWrite_ctx_faults (pos : Position) (v : Byte) : (s.cellWrite pos v).ctx.faults = s.ctx.faults := rfl
@[simp] theorem State.cellWrite_ctx_refused (pos : Position) (v : Byte) : (s.cellWrite pos v).ctx.refused = s.ctx.refused := rfl

/-! ### `complete` -/

@[simp] theorem State.complete_params (r : Var) (v : Byte) : (s.complete r v).params = s.params := rfl
@[simp] theorem State.complete_others (r : Var) (v : Byte) : (s.complete r v).others = s.others := rfl
@[simp] theorem State.complete_trace (r : Var) (v : Byte) : (s.complete r v).trace = s.trace := rfl
@[simp] theorem State.complete_env (r : Var) (v : Byte) : (s.complete r v).env = s.env := rfl
@[simp] theorem State.complete_ctx_vars (r : Var) (v : Byte) : (s.complete r v).ctx.vars = s.ctx.vars.set r (.byte v) := rfl
@[simp] theorem State.complete_ctx_buf (r : Var) (v : Byte) : (s.complete r v).ctx.buf = s.ctx.buf := rfl
@[simp] theorem State.complete_ctx_program (r : Var) (v : Byte) : (s.complete r v).ctx.program = s.ctx.program := rfl
@[simp] theorem State.complete_ctx_pc (r : Var) (v : Byte) : (s.complete r v).ctx.pc = s.ctx.pc + 1 := rfl
@[simp] theorem State.complete_ctx_phase (r : Var) (v : Byte) : (s.complete r v).ctx.phase = s.ctx.phase := rfl
@[simp] theorem State.complete_ctx_faults (r : Var) (v : Byte) : (s.complete r v).ctx.faults = s.ctx.faults := rfl
@[simp] theorem State.complete_ctx_refused (r : Var) (v : Byte) : (s.complete r v).ctx.refused = s.ctx.refused := rfl

/-! ### `endSequence` -/

@[simp] theorem State.endSequence_params : (s.endSequence).params = s.params := rfl
@[simp] theorem State.endSequence_others : (s.endSequence).others = s.others := rfl
@[simp] theorem State.endSequence_trace : (s.endSequence).trace = s.trace := rfl
@[simp] theorem State.endSequence_env : (s.endSequence).env = s.env := rfl
@[simp] theorem State.endSequence_ctx_vars : (s.endSequence).ctx.vars = s.ctx.vars := rfl
@[simp] theorem State.endSequence_ctx_buf : (s.endSequence).ctx.buf = s.ctx.buf := rfl
@[simp] theorem State.endSequence_ctx_program : (s.endSequence).ctx.program = s.ctx.program := rfl
@[simp] theorem State.endSequence_ctx_pc : (s.endSequence).ctx.pc = s.ctx.pc + 1 := rfl
@[simp] theorem State.endSequence_ctx_phase : (s.endSequence).ctx.phase = .idle := rfl
@[simp] theorem State.endSequence_ctx_faults : (s.endSequence).ctx.faults = s.ctx.faults := rfl
@[simp] theorem State.endSequence_ctx_refused : (s.endSequence).ctx.refused = s.ctx.refused := rfl

/-! ### `endDrain` -/

@[simp] theorem State.endDrain_params (w : Drain) : (s.endDrain w).params = s.params := rfl
@[simp] theorem State.endDrain_others (w : Drain) : (s.endDrain w).others = s.others := rfl
@[simp] theorem State.endDrain_trace (w : Drain) : (s.endDrain w).trace = s.trace := rfl
@[simp] theorem State.endDrain_env (w : Drain) : (s.endDrain w).env = s.env := rfl
@[simp] theorem State.endDrain_ctx_vars (w : Drain) : (s.endDrain w).ctx.vars = s.ctx.vars.set w.rd (.byte w.i) := rfl
@[simp] theorem State.endDrain_ctx_buf (w : Drain) : (s.endDrain w).ctx.buf = s.ctx.buf := rfl
@[simp] theorem State.endDrain_ctx_program (w : Drain) : (s.endDrain w).ctx.program = s.ctx.program := rfl
@[simp] theorem State.endDrain_ctx_pc (w : Drain) : (s.endDrain w).ctx.pc = s.ctx.pc + 1 := rfl
@[simp] theorem State.endDrain_ctx_phase (w : Drain) : (s.endDrain w).ctx.phase = .idle := rfl
@[simp] theorem State.endDrain_ctx_faults (w : Drain) : (s.endDrain w).ctx.faults = s.ctx.faults := rfl
@[simp] theorem State.endDrain_ctx_refused (w : Drain) : (s.endDrain w).ctx.refused = s.ctx.refused := rfl

/-! ### Reading a variable -/

@[simp] theorem State.var_setVar_same (r : Var) (v : Byte) : (s.setVar r v).var r = .byte v := by
  simp [State.var]

theorem State.var_setVar_other {r q : Var} (v : Byte) (h : q ≠ r) : (s.setVar r v).var q = s.var q := by
  have h' : (r : Nat) ≠ q := fun e => h (Fin.ext e.symm)
  simp [State.var, h']

@[simp] theorem State.var_advancePc (q : Var) : (s.advancePc).var q = s.var q := rfl
@[simp] theorem State.var_setPhase (p : Phase) (q : Var) : (s.setPhase p).var q = s.var q := rfl
@[simp] theorem State.var_setBuf (a : Nat) (b : Byte) (q : Var) : (s.setBuf a b).var q = s.var q := rfl
@[simp] theorem State.var_emit (dir : Direction) (pos : Position) (w : CellWord) (q : Var) : (s.emit dir pos w).var q = s.var q := rfl
@[simp] theorem State.var_drawAnswer (pos : Position) (q : Var) : (s.drawAnswer pos).var q = s.var q := rfl
@[simp] theorem State.var_raise (c : FaultCause) (q : Var) : (s.raise c).var q = s.var q := rfl
@[simp] theorem State.var_refuseWord (q : Var) : (s.refuseWord).var q = s.var q := rfl
@[simp] theorem State.var_cellRead (pos : Position) (q : Var) : (s.cellRead pos).var q = s.var q := rfl
@[simp] theorem State.var_cellWrite (pos : Position) (v : Byte) (q : Var) : (s.cellWrite pos v).var q = s.var q := rfl
@[simp] theorem State.var_endSequence (q : Var) : (s.endSequence).var q = s.var q := rfl
@[simp] theorem State.var_complete_same (r : Var) (v : Byte) : (s.complete r v).var r = .byte v :=
  s.var_setVar_same r v
theorem State.var_complete_other {r q : Var} (v : Byte) (h : q ≠ r) : (s.complete r v).var q = s.var q :=
  s.var_setVar_other v h
@[simp] theorem State.var_endDrain_same (w : Drain) : (s.endDrain w).var w.rd = .byte w.i :=
  s.var_setVar_same w.rd w.i
theorem State.var_endDrain_other {w : Drain} {q : Var} (h : q ≠ w.rd) : (s.endDrain w).var q = s.var q :=
  s.var_setVar_other w.i h

/-! ### The device's answer is fixed by the width, the trace and the environment. -/

theorem State.answer_congr {s s' : State} (hp : s.params = s'.params) (ht : s.trace = s'.trace) (he : s.env = s'.env)
    (pos : Position) : s.answer pos = s'.answer pos := by
  simp [State.answer, hp, ht, he]

end Sys2Proof.Machine
end

