-- ==== Sys2Proof/Laws/Operands.lean ====
section
/-! SUPPORT. One spec lemma per shared operation: everything it can answer. Callers cite these instead of unfolding. -/

namespace Sys2Proof.Machine

theorem withOperand_byte {rs : Var} {s : State} {v : Byte} (h : s.var rs = .byte v) (k : Byte → Result) :
    withOperand rs s k = k v := by simp [withOperand, h]

theorem withOperand_unwritten {rs : Var} {s : State} (h : s.var rs = .unwritten) (k : Byte → Result) :
    withOperand rs s k = .next (s.raise (.unwrittenVariable rs)) := by simp [withOperand, h]

/-- Every answer of `withOperand`: the continuation's on the byte read, or the raised fault. -/
theorem withOperand_cases (rs : Var) (s : State) (k : Byte → Result) :
    (∃ v, s.var rs = .byte v ∧ withOperand rs s k = k v) ∨
      (s.var rs = .unwritten ∧ withOperand rs s k = .next (s.raise (.unwrittenVariable rs))) := by
  cases h : s.var rs with
  | unwritten => exact .inr ⟨rfl, withOperand_unwritten h k⟩
  | byte v => exact .inl ⟨v, rfl, withOperand_byte h k⟩

theorem pureOp_byte {rd rs : Var} {s : State} {v : Byte} (h : s.var rs = .byte v) (f : Byte → Byte) :
    pureOp rd rs f s = .next (s.complete rd (f v)) := withOperand_byte h _

theorem pureOp_unwritten {rd rs : Var} {s : State} (h : s.var rs = .unwritten) (f : Byte → Byte) :
    pureOp rd rs f s = .next (s.raise (.unwrittenVariable rs)) := withOperand_unwritten h _

theorem viewWrite_byte {pos : Position} {rs : Var} {s : State} {v : Byte} (h : s.var rs = .byte v) :
    viewWrite pos rs s = .next (s.cellWrite pos v).advancePc := withOperand_byte h _

theorem viewWrite_unwritten {pos : Position} {rs : Var} {s : State} (h : s.var rs = .unwritten) :
    viewWrite pos rs s = .next (s.raise (.unwrittenVariable rs)) := withOperand_unwritten h _

theorem viewRead_eq (pos : Position) (rd : Var) (s : State) :
    viewRead pos rd s = .next ((s.cellRead pos).complete rd (s.readByte pos)) := rfl

theorem constOp_eq (rd : Var) (v : Byte) (s : State) : constOp rd v s = .next (s.complete rd v) := rfl

/-- A step that answers a next state does so through `handOver`. -/
theorem thenHandOver_next {r : Result} {t : State} (h : thenHandOver r = .next t) : ∃ u, r = .next u ∧ t = u.handOver := by
  cases r with
  | next u => exact ⟨u, rfl, by simpa [thenHandOver] using h.symm⟩
  | fault f => simp [thenHandOver] at h
  | refused q => simp [thenHandOver] at h

/-- Everything a step can do: run the context whose turn it is and hand over, pass the turn, stop, or refuse. -/
theorem step_cases (s : State) :
    (baseAligned s.params = false ∧ step s = .refused .misalignedBase) ∨
    (baseAligned s.params = true ∧ s.ctx.stopReason = none ∧ step s = thenHandOver (contextStep s)) ∨
    (baseAligned s.params = true ∧ ∃ r, s.ctx.stopReason = some r ∧ s.others.any Context.live = true ∧
      step s = .next s.handOver) ∨
    (baseAligned s.params = true ∧ ∃ r, s.ctx.stopReason = some r ∧ s.others.any Context.live = false ∧
      step s = .fault r) := by
  unfold step machineStep passTurn
  cases ha : baseAligned s.params
  · simp
  · cases hr : s.ctx.stopReason with
    | none => simp
    | some r => cases s.others.any Context.live <;> simp

end Sys2Proof.Machine
end

