-- ==== Sys2Proof/Laws/Exec.lean ====
section
/-! SUPPORT. Everything an operation can answer, said once: the shapes of the next state, and which operation takes which. -/

namespace Sys2Proof.Machine

/-- The next states of an operation in state `s`. -/
inductive ExecShape (i : Instr) (s : State) : State → Prop where
  /-- A result in a variable, and no access. -/
  | completes (rd : Var) (v : Byte) (hd : resultVar i = some rd) : ExecShape i s (s.complete rd v)
  /-- One read. -/
  | reads (pos : Position) (rd : Var) (hi : operandVar i = none) (hd : resultVar i = some rd) :
      ExecShape i s ((s.cellRead pos).complete rd (s.readByte pos))
  /-- One write, of a position that may be written. -/
  | writes (pos : Position) (rs : Var) (v : Byte) (hi : operandVar i = some rs) (hv : s.var rs = .byte v)
      (hl : pos ≠ .lsr) (hm : pos ≠ .msr) : ExecShape i s (s.cellWrite pos v).advancePc
  /-- The unwritten operand (R140). -/
  | unwritten (rs : Var) (hi : operandVar i = some rs) (hv : s.var rs = .unwritten) :
      ExecShape i s (s.raise (.unwrittenVariable rs))
  /-- The pattern outside the table (R139). -/
  | invalidCause (rd rs : Var) (v : Byte) (hi : i = .iirPendingInterrupts rd rs) (hv : s.var rs = .byte v)
      (hc : decodeCause (causeField v) = none) : ExecShape i s (s.raise (.iirInvalidCause v))
  /-- A transfer machine loaded. -/
  | loadsDivisor (d : BitVec 16) (hi : i = .writeDivisor d) : ExecShape i s (s.setPhase (.div0 d))
  | loadsRead (rd : Var) (base len : Byte) (hi : i = .read rd base len) :
      ExecShape i s (s.setPhase (.rdPoll { rd := rd, base := base, len := len, i := 0#8 }))
  | loadsWrite (rd : Var) (base len : Byte) (hi : i = .write rd base len) :
      ExecShape i s (s.setPhase (.wrPoll { rd := rd, base := base, len := len, i := 0#8 }))

theorem pureOp_shape {i : Instr} {rd rs : Var} (f : Byte → Byte) (s : State) (hi : operandVar i = some rs)
    (hd : resultVar i = some rd) : ∃ t, pureOp rd rs f s = .next t ∧ ExecShape i s t := by
  rcases withOperand_cases rs s fun v => .next (s.complete rd (f v)) with ⟨v, -, h⟩ | ⟨hv, h⟩
  · exact ⟨_, h, .completes rd _ hd⟩
  · exact ⟨_, h, .unwritten rs hi hv⟩

theorem viewWrite_shape {i : Instr} {pos : Position} {rs : Var} (s : State) (hi : operandVar i = some rs)
    (hl : pos ≠ .lsr) (hm : pos ≠ .msr) : ∃ t, viewWrite pos rs s = .next t ∧ ExecShape i s t := by
  rcases withOperand_cases rs s fun v => .next (s.cellWrite pos v).advancePc with ⟨v, hv, h⟩ | ⟨hv, h⟩
  · exact ⟨_, h, .writes pos rs v hi hv hl hm⟩
  · exact ⟨_, h, .unwritten rs hi hv⟩

theorem pendingInterrupts_shape (rd rs : Var) (s : State) :
    ∃ t, execIirPendingInterrupts rd rs s = .next t ∧ ExecShape (.iirPendingInterrupts rd rs) s t := by
  unfold execIirPendingInterrupts
  cases hv : s.var rs with
  | unwritten => exact ⟨_, withOperand_unwritten hv _, .unwritten rs rfl hv⟩
  | byte v =>
    rw [withOperand_byte hv]
    cases hc : decodeCause (causeField v) with
    | none => exact ⟨_, rfl, .invalidCause rd rs v rfl hv hc⟩
    | some p => exact ⟨_, rfl, .completes rd _ rfl⟩

/-- Every operation answers a next state, of one of the shapes. -/
theorem exec_shape (i : Instr) (s : State) : ∃ t, exec i s = .next t ∧ ExecShape i s t := by
  cases i
  case writeDivisor d => exact ⟨_, rfl, .loadsDivisor d rfl⟩
  case read rd base len => exact ⟨_, rfl, .loadsRead rd base len rfl⟩
  case write rd base len => exact ⟨_, rfl, .loadsWrite rd base len rfl⟩
  case iirPendingInterrupts rd rs => exact pendingInterrupts_shape rd rs s
  all_goals first
    | exact pureOp_shape _ s rfl rfl
    | exact viewWrite_shape s rfl (by decide) (by decide)
    | exact ⟨_, rfl, .reads _ _ rfl rfl⟩
    | exact ⟨_, rfl, .completes _ _ rfl⟩

/-- The next states of one context's step: the word at `pc`, or the row of the transfer machine. -/
inductive StepShape (s : State) : State → Prop where
  | word (w : OpWord) (i : Instr) (t : State) (hp : s.ctx.phase = .idle) (hf : s.ctx.program[s.ctx.pc]? = some w)
      (hd : decode w = .instr i) (he : ExecShape i s t) : StepShape s t
  | refusedWord (w : OpWord) (e : DecodeError) (hp : s.ctx.phase = .idle) (hf : s.ctx.program[s.ctx.pc]? = some w)
      (hd : decode w = .refused e) : StepShape s s.refuseWord
  | div0 (d : BitVec 16) (hp : s.ctx.phase = .div0 d) :
      StepShape s ((s.cellRead .lcr).setPhase (.div1 d (s.readByte .lcr)))
  | div1 (d : BitVec 16) (l : Byte) (hp : s.ctx.phase = .div1 d l) :
      StepShape s ((s.cellWrite .lcr (l ||| 0x80#8)).setPhase (.div2 d l))
  | div2 (d : BitVec 16) (l : Byte) (hp : s.ctx.phase = .div2 d l) :
      StepShape s ((s.cellWrite .data (d.extractLsb' 0 8)).setPhase (.div3 d l))
  | div3 (d : BitVec 16) (l : Byte) (hp : s.ctx.phase = .div3 d l) :
      StepShape s ((s.cellWrite .ier (d.extractLsb' 8 8)).setPhase (.div4 d l))
  | div4 (d : BitVec 16) (l : Byte) (hp : s.ctx.phase = .div4 d l) : StepShape s (s.cellWrite .lcr l).endSequence
  | pollFull (w : Drain) (hp : s.ctx.phase = .rdPoll w ∨ s.ctx.phase = .wrPoll w) (hi : w.i = w.len) :
      StepShape s (s.endDrain w)
  | pollNotReady (w : Drain) (hp : s.ctx.phase = .rdPoll w ∨ s.ctx.phase = .wrPoll w) (hi : w.i ≠ w.len) :
      StepShape s ((s.cellRead .lsr).endDrain w)
  | rdReady (w : Drain) (hp : s.ctx.phase = .rdPoll w) (hi : w.i ≠ w.len) :
      StepShape s ((s.cellRead .lsr).setPhase (.rdData w))
  | wrReady (w : Drain) (hp : s.ctx.phase = .wrPoll w) (hi : w.i ≠ w.len) :
      StepShape s ((s.cellRead .lsr).setPhase (.wrData w))
  | rdData (w : Drain) (hp : s.ctx.phase = .rdData w) (hb : drainIndex w < Config.bufSize) :
      StepShape s (((s.cellRead .data).setBuf (drainIndex w) (s.readByte .data)).setPhase (.rdPoll (drainNext w)))
  | wrData (w : Drain) (hp : s.ctx.phase = .wrData w) (hb : drainIndex w < Config.bufSize) :
      StepShape s ((s.cellWrite .data (s.bufByte (drainIndex w))).setPhase (.wrPoll (drainNext w)))

/-- Every next state of a context's step has one of the shapes. -/
theorem contextStep_shape {s t : State} (h : contextStep s = .next t) : StepShape s t := by
  unfold contextStep at h
  split at h
  case h_1 hp =>
    unfold runWord State.fetch at h
    split at h
    · next w hw =>
      split at h
      · next i hd =>
        obtain ⟨u, hu, he⟩ := exec_shape i s
        obtain rfl : u = t := by simpa [hu] using h
        exact .word w i u hp hw hd he
      · next e hd =>
        obtain rfl : s.refuseWord = t := by simpa using h
        exact .refusedWord w e hp hw hd
    · cases h
  case h_2 d hp => obtain rfl := Host.Outcome.next.inj h; exact .div0 d hp
  case h_3 d l hp => obtain rfl := Host.Outcome.next.inj h; exact .div1 d l hp
  case h_4 d l hp => obtain rfl := Host.Outcome.next.inj h; exact .div2 d l hp
  case h_5 d l hp => obtain rfl := Host.Outcome.next.inj h; exact .div3 d l hp
  case h_6 d l hp => obtain rfl := Host.Outcome.next.inj h; exact .div4 d l hp
  case h_7 w hp =>
    unfold stepRdPoll at h
    split at h
    · next hi => obtain rfl := Host.Outcome.next.inj h; exact .pollFull w (.inl hp) hi
    · next hi =>
      split at h
      · obtain rfl := Host.Outcome.next.inj h; exact .rdReady w hp hi
      · obtain rfl := Host.Outcome.next.inj h; exact .pollNotReady w (.inl hp) hi
  case h_8 w hp =>
    unfold stepRdData at h
    split at h
    · next hb => obtain rfl := Host.Outcome.next.inj h; exact .rdData w hp hb
    · cases h
  case h_9 w hp =>
    unfold stepWrPoll at h
    split at h
    · next hi => obtain rfl := Host.Outcome.next.inj h; exact .pollFull w (.inr hp) hi
    · next hi =>
      split at h
      · obtain rfl := Host.Outcome.next.inj h; exact .wrReady w hp hi
      · obtain rfl := Host.Outcome.next.inj h; exact .pollNotReady w (.inr hp) hi
  case h_10 w hp =>
    unfold stepWrData at h
    split at h
    · next hb => obtain rfl := Host.Outcome.next.inj h; exact .wrData w hp hb
    · cases h

/-- Every next state of a step: a context's step and then the turn handed over, or the turn passed on alone. -/
theorem step_next {s t : State} (h : step s = .next t) :
    (∃ u, s.ctx.stopReason = none ∧ contextStep s = .next u ∧ t = u.handOver) ∨
      (s.ctx.stopReason ≠ none ∧ t = s.handOver) := by
  rcases step_cases s with ⟨-, h1⟩ | ⟨-, hl, h1⟩ | ⟨-, r, hr, -, h1⟩ | ⟨-, r, -, -, h1⟩ <;> rw [h1] at h
  · cases h
  · obtain ⟨u, hu, ht⟩ := thenHandOver_next h
    exact .inl ⟨u, hl, hu, ht⟩
  · exact .inr ⟨by simp [hr], (Host.Outcome.next.inj h).symm⟩
  · cases h

end Sys2Proof.Machine
end

