-- ==== Sys2Proof/Laws/Memory.lean ====
section
/-! SUPPORT. The caller buffer's memory: a read after a write, and that every write keeps the canonical form. -/

namespace Sys2Proof.Machine

@[simp] theorem memRead_nil (a : Nat) : memRead [] a = unlistedByte := rfl

@[simp] theorem memRead_cons (k : Nat) (c : Byte) (m : Memory) (a : Nat) :
    memRead ((k, c) :: m) a = if k = a then c else memRead m a := rfl

theorem memRead_memPut (m : Memory) (a x : Nat) (b : Byte) :
    memRead (memPut m a b) x = if a = x then b else memRead m x := by
  induction m with
  | nil => simp [memPut]
  | cons e m ih =>
    obtain ⟨k, c⟩ := e
    simp only [memPut]
    split_ifs <;> simp_all
    omega

/-- In a canonical list an address below its start is not listed. -/
theorem memRead_below {lo a : Nat} {m : Memory} (h : memWfFrom lo m = true) (ha : a < lo) : memRead m a = unlistedByte := by
  induction m generalizing lo with
  | nil => rfl
  | cons e m ih =>
    obtain ⟨k, c⟩ := e
    simp only [memWfFrom, Bool.and_eq_true, decide_eq_true_eq] at h
    obtain ⟨⟨⟨h1, -⟩, -⟩, h4⟩ := h
    rw [memRead_cons, if_neg (by omega), ih h4 (by omega)]

theorem memRead_memErase {lo : Nat} {m : Memory} (h : memWfFrom lo m = true) (a x : Nat) :
    memRead (memErase m a) x = if a = x then unlistedByte else memRead m x := by
  induction m generalizing lo with
  | nil => simp [memErase]
  | cons e m ih =>
    obtain ⟨k, c⟩ := e
    simp only [memWfFrom, Bool.and_eq_true, decide_eq_true_eq] at h
    obtain ⟨-, h4⟩ := h
    simp only [memErase]
    by_cases hk : k = a
    · subst hk
      rw [if_pos rfl]
      by_cases hx : k = x
      · subst hx; rw [if_pos rfl]; exact memRead_below h4 (by omega)
      · simp [hx]
    · rw [if_neg hk, memRead_cons, memRead_cons, ih h4]
      by_cases hx : a = x
      · subst hx; simp [hk]
      · simp [hx]

/-- A read after a write: the written byte at its address, the old byte everywhere else. -/
theorem memRead_memWrite {m : Memory} (h : m.wf = true) (a x : Nat) (b : Byte) :
    memRead (memWrite m a b) x = if a = x then b else memRead m x := by
  unfold memWrite
  by_cases hb : b = unlistedByte
  · rw [if_pos hb, memRead_memErase h, hb]
  · rw [if_neg hb, memRead_memPut]

theorem memWfFrom_mono {lo lo' : Nat} {m : Memory} (h : memWfFrom lo m = true) (hl : lo' ≤ lo) : memWfFrom lo' m = true := by
  cases m with
  | nil => rfl
  | cons e m =>
    obtain ⟨k, c⟩ := e
    simp only [memWfFrom, Bool.and_eq_true, decide_eq_true_eq] at h ⊢
    exact ⟨⟨⟨by omega, h.1.1.2⟩, h.1.2⟩, h.2⟩

theorem memWfFrom_memPut {lo : Nat} {m : Memory} (h : memWfFrom lo m = true) {a : Nat} {b : Byte} (ha : a < Config.bufSize)
    (hlo : lo ≤ a) (hb : b ≠ unlistedByte) : memWfFrom lo (memPut m a b) = true := by
  induction m generalizing lo with
  | nil => simp [memPut, memWfFrom, ha, hlo, hb]
  | cons e m ih =>
    obtain ⟨k, c⟩ := e
    simp only [memPut]
    simp only [memWfFrom, Bool.and_eq_true, decide_eq_true_eq] at h
    obtain ⟨⟨⟨h1, h2⟩, h3⟩, h4⟩ := h
    split_ifs with hk hk'
    · simp only [memWfFrom, Bool.and_eq_true, decide_eq_true_eq]
      exact ⟨⟨⟨hlo, ha⟩, by simpa using hb⟩, ⟨⟨by omega, h2⟩, h3⟩, h4⟩
    · subst hk'
      simp only [memWfFrom, Bool.and_eq_true, decide_eq_true_eq]
      exact ⟨⟨⟨hlo, ha⟩, by simpa using hb⟩, h4⟩
    · simp only [memWfFrom, Bool.and_eq_true, decide_eq_true_eq]
      exact ⟨⟨⟨h1, h2⟩, h3⟩, ih h4 (by omega)⟩

theorem memWfFrom_memErase {lo : Nat} {m : Memory} (h : memWfFrom lo m = true) (a : Nat) :
    memWfFrom lo (memErase m a) = true := by
  induction m generalizing lo with
  | nil => rfl
  | cons e m ih =>
    obtain ⟨k, c⟩ := e
    simp only [memErase]
    simp only [memWfFrom, Bool.and_eq_true, decide_eq_true_eq] at h
    obtain ⟨⟨⟨h1, h2⟩, h3⟩, h4⟩ := h
    split_ifs
    · exact memWfFrom_mono h4 (by omega)
    · simp only [memWfFrom, Bool.and_eq_true, decide_eq_true_eq]
      exact ⟨⟨⟨h1, h2⟩, h3⟩, ih h4⟩

/-- The buffer of the reset state: nothing listed. -/
theorem Memory.wf_nil : Memory.wf [] = true := rfl

/-- Every write to an index of `BUF` keeps the canonical form. -/
theorem Memory.wf_memWrite {m : Memory} (h : m.wf = true) {a : Nat} (ha : a < Config.bufSize) (b : Byte) :
    Memory.wf (memWrite m a b) = true := by
  unfold memWrite Memory.wf
  split_ifs with hb
  · exact memWfFrom_memErase h a
  · exact memWfFrom_memPut h ha (Nat.zero_le _) hb

/-- Two canonical memories that read alike are the same list. -/
theorem memWfFrom_ext {lo : Nat} {m m' : Memory} (h : memWfFrom lo m = true) (h' : memWfFrom lo m' = true)
    (hr : ∀ a, memRead m a = memRead m' a) : m = m' := by
  induction m generalizing lo m' with
  | nil =>
    cases m' with
    | nil => rfl
    | cons e m' =>
      obtain ⟨k, c⟩ := e
      simp only [memWfFrom, Bool.and_eq_true, decide_eq_true_eq, bne_iff_ne, ne_eq] at h'
      have := hr k
      simp at this
      exact absurd this.symm h'.1.2
  | cons e m ih =>
    obtain ⟨k, c⟩ := e
    cases m' with
    | nil =>
      simp only [memWfFrom, Bool.and_eq_true, decide_eq_true_eq, bne_iff_ne, ne_eq] at h
      have := hr k
      simp at this
      exact absurd this h.1.2
    | cons e' m' =>
      obtain ⟨k', c'⟩ := e'
      have hw := h
      have hw' := h'
      simp only [memWfFrom, Bool.and_eq_true, decide_eq_true_eq, bne_iff_ne, ne_eq] at h h'
      have hk : k = k' := by
        rcases Nat.lt_trichotomy k k' with hlt | heq | hgt
        · have := hr k
          rw [memRead_cons, if_pos rfl, memRead_cons, if_neg (by omega), memRead_below h'.2 (by omega)] at this
          exact absurd this h.1.2
        · exact heq
        · have := hr k'
          rw [memRead_cons, if_neg (by omega), memRead_below h.2 (by omega), memRead_cons, if_pos rfl] at this
          exact absurd this.symm h'.1.2
      subst hk
      have hc : c = c' := by simpa using hr k
      subst hc
      rw [ih h.2 h'.2]
      intro a
      have := hr a
      rw [memRead_cons, memRead_cons] at this
      by_cases ha : k = a
      · subst ha; rw [memRead_below h.2 (by omega), memRead_below h'.2 (by omega)]
      · simpa [ha] using this

end Sys2Proof.Machine
end

