-- ==== Sys2Proof/Laws/PerInstr.lean ====
section
/-! SUPPORT. One lemma per operation about its row of spec/opcode_table.json: its word has the row's `match` under the row's `mask`. -/

namespace Sys2Proof.Laws

open Sys2Proof

/-- A word pattern of R61 written field by field: `op`, `rd`, `rs`, `imm[15:8]`, `imm[7:0]`. -/
def pattern (op : BitVec 8) (rd rs : BitVec 4) (hi lo : BitVec 8) : OpWord := (Fields.mk op rd rs (hi ++ lo)).toWord

/-- The masks of the table, one per format (R62, R63): the opcode and every field that must be zero. -/
def TableRow.mask : Instr → OpWord
  | .li _ _ => 0xFF0FFF00#32
  | .rbrRead _ => 0xFF0FFFFF#32
  | .thrWrite _ => 0xFFF0FFFF#32
  | .ierRead _ => 0xFF0FFFFF#32
  | .ierWrite _ => 0xFFF0FFFF#32
  | .iirRead _ => 0xFF0FFFFF#32
  | .fcrWrite _ => 0xFFF0FFFF#32
  | .lcrRead _ => 0xFF0FFFFF#32
  | .lcrWrite _ => 0xFFF0FFFF#32
  | .mcrRead _ => 0xFF0FFFFF#32
  | .mcrWrite _ => 0xFFF0FFFF#32
  | .lsrRead _ => 0xFF0FFFFF#32
  | .msrRead _ => 0xFF0FFFFF#32
  | .fifoAndReset _ _ => 0xFF0FFF00#32
  | .fifoWithoutReset _ _ => 0xFF0FFF00#32
  | .fifoTriggerLevel _ _ => 0xFF00FFFF#32
  | .iirPendingInterrupts _ _ => 0xFF00FFFF#32
  | .iirFifosEnabled _ _ => 0xFF00FFFF#32
  | .ierEnableRda _ _ => 0xFF00FFFF#32
  | .ierDisableRda _ _ => 0xFF00FFFF#32
  | .ierIsRdaEnabled _ _ => 0xFF00FFFF#32
  | .ierEnableThre _ _ => 0xFF00FFFF#32
  | .ierDisableThre _ _ => 0xFF00FFFF#32
  | .ierIsThreEnabled _ _ => 0xFF00FFFF#32
  | .ierEnableRls _ _ => 0xFF00FFFF#32
  | .ierDisableRls _ _ => 0xFF00FFFF#32
  | .ierIsRlsEnabled _ _ => 0xFF00FFFF#32
  | .ierEnableMs _ _ => 0xFF00FFFF#32
  | .ierDisableMs _ _ => 0xFF00FFFF#32
  | .ierIsMsEnabled _ _ => 0xFF00FFFF#32
  | .lcrDefault _ => 0xFF0FFFFF#32
  | .lcrEnableDlrAccess _ _ => 0xFF00FFFF#32
  | .lcrDisableDlrAccess _ _ => 0xFF00FFFF#32
  | .lcrEnableBreakControl _ _ => 0xFF00FFFF#32
  | .lcrDisableBreakControl _ _ => 0xFF00FFFF#32
  | .lcrEnableStickParity _ _ => 0xFF00FFFF#32
  | .lcrDisableStickParity _ _ => 0xFF00FFFF#32
  | .lcrSetParity _ _ _ => 0xFF00FF00#32
  | .lcrParity _ _ => 0xFF00FFFF#32
  | .lcrSetOneStopBit _ _ _ => 0xFF00FF00#32
  | .lcrIsOneStopBit _ _ => 0xFF00FFFF#32
  | .lcrSetCharLen _ _ _ => 0xFF00FF00#32
  | .lcrCharLen _ _ => 0xFF00FFFF#32
  | .lsrDataReady _ _ => 0xFF00FFFF#32
  | .lsrOverrunError _ _ => 0xFF00FFFF#32
  | .lsrParityError _ _ => 0xFF00FFFF#32
  | .lsrFramingError _ _ => 0xFF00FFFF#32
  | .lsrBreakInterrupt _ _ => 0xFF00FFFF#32
  | .lsrThrEmpty _ _ => 0xFF00FFFF#32
  | .lsrTransmitterEmpty _ _ => 0xFF00FFFF#32
  | .lsrRxFifoError _ _ => 0xFF00FFFF#32
  | .writeDivisor _ => 0xFFFF0000#32
  | .read _ _ _ => 0xFF0F0000#32
  | .write _ _ _ => 0xFF0F0000#32

/-- The `match` column of the table. -/
def TableRow.value : Instr → OpWord
  | .li _ _ => 0x01000000#32
  | .rbrRead _ => 0x10000000#32
  | .thrWrite _ => 0x11000000#32
  | .ierRead _ => 0x12000000#32
  | .ierWrite _ => 0x13000000#32
  | .iirRead _ => 0x14000000#32
  | .fcrWrite _ => 0x15000000#32
  | .lcrRead _ => 0x16000000#32
  | .lcrWrite _ => 0x17000000#32
  | .mcrRead _ => 0x18000000#32
  | .mcrWrite _ => 0x19000000#32
  | .lsrRead _ => 0x1A000000#32
  | .msrRead _ => 0x1B000000#32
  | .fifoAndReset _ _ => 0x20000000#32
  | .fifoWithoutReset _ _ => 0x21000000#32
  | .fifoTriggerLevel _ _ => 0x22000000#32
  | .iirPendingInterrupts _ _ => 0x28000000#32
  | .iirFifosEnabled _ _ => 0x29000000#32
  | .ierEnableRda _ _ => 0x30000000#32
  | .ierDisableRda _ _ => 0x31000000#32
  | .ierIsRdaEnabled _ _ => 0x32000000#32
  | .ierEnableThre _ _ => 0x33000000#32
  | .ierDisableThre _ _ => 0x34000000#32
  | .ierIsThreEnabled _ _ => 0x35000000#32
  | .ierEnableRls _ _ => 0x36000000#32
  | .ierDisableRls _ _ => 0x37000000#32
  | .ierIsRlsEnabled _ _ => 0x38000000#32
  | .ierEnableMs _ _ => 0x39000000#32
  | .ierDisableMs _ _ => 0x3A000000#32
  | .ierIsMsEnabled _ _ => 0x3B000000#32
  | .lcrDefault _ => 0x40000000#32
  | .lcrEnableDlrAccess _ _ => 0x41000000#32
  | .lcrDisableDlrAccess _ _ => 0x42000000#32
  | .lcrEnableBreakControl _ _ => 0x43000000#32
  | .lcrDisableBreakControl _ _ => 0x44000000#32
  | .lcrEnableStickParity _ _ => 0x45000000#32
  | .lcrDisableStickParity _ _ => 0x46000000#32
  | .lcrSetParity _ _ _ => 0x47000000#32
  | .lcrParity _ _ => 0x48000000#32
  | .lcrSetOneStopBit _ _ _ => 0x49000000#32
  | .lcrIsOneStopBit _ _ => 0x4A000000#32
  | .lcrSetCharLen _ _ _ => 0x4B000000#32
  | .lcrCharLen _ _ => 0x4C000000#32
  | .lsrDataReady _ _ => 0x50000000#32
  | .lsrOverrunError _ _ => 0x51000000#32
  | .lsrParityError _ _ => 0x52000000#32
  | .lsrFramingError _ _ => 0x53000000#32
  | .lsrBreakInterrupt _ _ => 0x54000000#32
  | .lsrThrEmpty _ _ => 0x55000000#32
  | .lsrTransmitterEmpty _ _ => 0x56000000#32
  | .lsrRxFifoError _ _ => 0x57000000#32
  | .writeDivisor _ => 0x70000000#32
  | .read _ _ _ => 0x71000000#32
  | .write _ _ _ => 0x72000000#32

/-- The word of an operation is a word of its table row. -/
def TableRow.Statement (i : Instr) : Prop := encode i &&& TableRow.mask i = TableRow.value i

theorem and_append_append {n m : Nat} (a c : BitVec n) (b d : BitVec m) : (a ++ b) &&& (c ++ d) = (a &&& c) ++ (b &&& d) :=
  BitVec.and_append

/-- Masking a word field by field. -/
theorem toWord_and_pattern (f : Fields) (op : BitVec 8) (rd rs : BitVec 4) (hi lo : BitVec 8) :
    f.toWord &&& pattern op rd rs hi lo =
      (Fields.mk (f.op &&& op) (f.rd &&& rd) (f.rs &&& rs) (f.imm &&& (hi ++ lo))).toWord := by
  show (f.op ++ f.rd ++ f.rs ++ f.imm) &&& (op ++ rd ++ rs ++ (hi ++ lo)) = _
  rw [and_append_append, and_append_append, and_append_append]
  rfl

theorem and_ones (op : BitVec 8) : op &&& 255#8 = op := BitVec.and_allOnes

/-! One lemma per format. -/

theorem TableRow.rd_row (op : BitVec 8) (rd : Var) :
    (fieldsRD op rd).toWord &&& pattern 0xFF 0x0 0xF 0xFF 0xFF = (Fields.mk op 0 0 0).toWord := by
  rw [toWord_and_pattern]; simp [fieldsRD, and_ones]

theorem TableRow.rs_row (op : BitVec 8) (rs : Var) :
    (fieldsRS op rs).toWord &&& pattern 0xFF 0xF 0x0 0xFF 0xFF = (Fields.mk op 0 0 0).toWord := by
  rw [toWord_and_pattern]; simp [fieldsRS, and_ones]

theorem TableRow.rr_row (op : BitVec 8) (rd rs : Var) :
    (fieldsRR op rd rs).toWord &&& pattern 0xFF 0x0 0x0 0xFF 0xFF = (Fields.mk op 0 0 0).toWord := by
  rw [toWord_and_pattern]; simp [fieldsRR, and_ones]

theorem byteImm_and (v : Byte) : byteImm v &&& 0xFF00#16 = 0#16 := by
  show (0#8 ++ v) &&& (0xFF#8 ++ 0x00#8) = 0#16
  rw [and_append_append]; simp

theorem TableRow.rri_row (op : BitVec 8) (rd rs : Var) (v : Byte) :
    (fieldsRRI op rd rs v).toWord &&& pattern 0xFF 0x0 0x0 0xFF 0x00 = (Fields.mk op 0 0 0).toWord := by
  rw [toWord_and_pattern]; simp [fieldsRRI, and_ones, byteImm_and]

theorem TableRow.ri_row (op : BitVec 8) (rd : Var) (v : Byte) :
    (fieldsRI op rd v).toWord &&& pattern 0xFF 0x0 0xF 0xFF 0x00 = (Fields.mk op 0 0 0).toWord := by
  rw [toWord_and_pattern]; simp [fieldsRI, and_ones, byteImm_and]

theorem TableRow.i16_row (op : BitVec 8) (d : BitVec 16) :
    (fieldsI16 op d).toWord &&& pattern 0xFF 0xF 0xF 0x00 0x00 = (Fields.mk op 0 0 0).toWord := by
  rw [toWord_and_pattern]; simp [fieldsI16, and_ones]

theorem TableRow.x_row (op : BitVec 8) (rd : Var) (base len : Byte) :
    (fieldsX op rd base len).toWord &&& pattern 0xFF 0x0 0xF 0x00 0x00 = (Fields.mk op 0 0 0).toWord := by
  rw [toWord_and_pattern]; simp [fieldsX, and_ones]

/-! One lemma per operation. -/

theorem TableRow.li (rd : Var) (v : Byte) : TableRow.Statement (.li rd v) := TableRow.ri_row _ rd _
theorem TableRow.rbrRead (rd : Var) : TableRow.Statement (.rbrRead rd) := TableRow.rd_row _ rd
theorem TableRow.thrWrite (rs : Var) : TableRow.Statement (.thrWrite rs) := TableRow.rs_row _ rs
theorem TableRow.ierRead (rd : Var) : TableRow.Statement (.ierRead rd) := TableRow.rd_row _ rd
theorem TableRow.ierWrite (rs : Var) : TableRow.Statement (.ierWrite rs) := TableRow.rs_row _ rs
theorem TableRow.iirRead (rd : Var) : TableRow.Statement (.iirRead rd) := TableRow.rd_row _ rd
theorem TableRow.fcrWrite (rs : Var) : TableRow.Statement (.fcrWrite rs) := TableRow.rs_row _ rs
theorem TableRow.lcrRead (rd : Var) : TableRow.Statement (.lcrRead rd) := TableRow.rd_row _ rd
theorem TableRow.lcrWrite (rs : Var) : TableRow.Statement (.lcrWrite rs) := TableRow.rs_row _ rs
theorem TableRow.mcrRead (rd : Var) : TableRow.Statement (.mcrRead rd) := TableRow.rd_row _ rd
theorem TableRow.mcrWrite (rs : Var) : TableRow.Statement (.mcrWrite rs) := TableRow.rs_row _ rs
theorem TableRow.lsrRead (rd : Var) : TableRow.Statement (.lsrRead rd) := TableRow.rd_row _ rd
theorem TableRow.msrRead (rd : Var) : TableRow.Statement (.msrRead rd) := TableRow.rd_row _ rd
theorem TableRow.fifoAndReset (rd : Var) (v : TriggerLevel) : TableRow.Statement (.fifoAndReset rd v) := TableRow.ri_row _ rd _
theorem TableRow.fifoWithoutReset (rd : Var) (v : TriggerLevel) : TableRow.Statement (.fifoWithoutReset rd v) := TableRow.ri_row _ rd _
theorem TableRow.fifoTriggerLevel (rd : Var) (rs : Var) : TableRow.Statement (.fifoTriggerLevel rd rs) := TableRow.rr_row _ rd rs
theorem TableRow.iirPendingInterrupts (rd : Var) (rs : Var) : TableRow.Statement (.iirPendingInterrupts rd rs) := TableRow.rr_row _ rd rs
theorem TableRow.iirFifosEnabled (rd : Var) (rs : Var) : TableRow.Statement (.iirFifosEnabled rd rs) := TableRow.rr_row _ rd rs
theorem TableRow.ierEnableRda (rd : Var) (rs : Var) : TableRow.Statement (.ierEnableRda rd rs) := TableRow.rr_row _ rd rs
theorem TableRow.ierDisableRda (rd : Var) (rs : Var) : TableRow.Statement (.ierDisableRda rd rs) := TableRow.rr_row _ rd rs
theorem TableRow.ierIsRdaEnabled (rd : Var) (rs : Var) : TableRow.Statement (.ierIsRdaEnabled rd rs) := TableRow.rr_row _ rd rs
theorem TableRow.ierEnableThre (rd : Var) (rs : Var) : TableRow.Statement (.ierEnableThre rd rs) := TableRow.rr_row _ rd rs
theorem TableRow.ierDisableThre (rd : Var) (rs : Var) : TableRow.Statement (.ierDisableThre rd rs) := TableRow.rr_row _ rd rs
theorem TableRow.ierIsThreEnabled (rd : Var) (rs : Var) : TableRow.Statement (.ierIsThreEnabled rd rs) := TableRow.rr_row _ rd rs
theorem TableRow.ierEnableRls (rd : Var) (rs : Var) : TableRow.Statement (.ierEnableRls rd rs) := TableRow.rr_row _ rd rs
theorem TableRow.ierDisableRls (rd : Var) (rs : Var) : TableRow.Statement (.ierDisableRls rd rs) := TableRow.rr_row _ rd rs
theorem TableRow.ierIsRlsEnabled (rd : Var) (rs : Var) : TableRow.Statement (.ierIsRlsEnabled rd rs) := TableRow.rr_row _ rd rs
theorem TableRow.ierEnableMs (rd : Var) (rs : Var) : TableRow.Statement (.ierEnableMs rd rs) := TableRow.rr_row _ rd rs
theorem TableRow.ierDisableMs (rd : Var) (rs : Var) : TableRow.Statement (.ierDisableMs rd rs) := TableRow.rr_row _ rd rs
theorem TableRow.ierIsMsEnabled (rd : Var) (rs : Var) : TableRow.Statement (.ierIsMsEnabled rd rs) := TableRow.rr_row _ rd rs
theorem TableRow.lcrDefault (rd : Var) : TableRow.Statement (.lcrDefault rd) := TableRow.rd_row _ rd
theorem TableRow.lcrEnableDlrAccess (rd : Var) (rs : Var) : TableRow.Statement (.lcrEnableDlrAccess rd rs) := TableRow.rr_row _ rd rs
theorem TableRow.lcrDisableDlrAccess (rd : Var) (rs : Var) : TableRow.Statement (.lcrDisableDlrAccess rd rs) := TableRow.rr_row _ rd rs
theorem TableRow.lcrEnableBreakControl (rd : Var) (rs : Var) : TableRow.Statement (.lcrEnableBreakControl rd rs) := TableRow.rr_row _ rd rs
theorem TableRow.lcrDisableBreakControl (rd : Var) (rs : Var) : TableRow.Statement (.lcrDisableBreakControl rd rs) := TableRow.rr_row _ rd rs
theorem TableRow.lcrEnableStickParity (rd : Var) (rs : Var) : TableRow.Statement (.lcrEnableStickParity rd rs) := TableRow.rr_row _ rd rs
theorem TableRow.lcrDisableStickParity (rd : Var) (rs : Var) : TableRow.Statement (.lcrDisableStickParity rd rs) := TableRow.rr_row _ rd rs
theorem TableRow.lcrSetParity (rd : Var) (rs : Var) (v : Parity) : TableRow.Statement (.lcrSetParity rd rs v) := TableRow.rri_row _ rd rs _
theorem TableRow.lcrParity (rd : Var) (rs : Var) : TableRow.Statement (.lcrParity rd rs) := TableRow.rr_row _ rd rs
theorem TableRow.lcrSetOneStopBit (rd : Var) (rs : Var) (v : Bool) : TableRow.Statement (.lcrSetOneStopBit rd rs v) := TableRow.rri_row _ rd rs _
theorem TableRow.lcrIsOneStopBit (rd : Var) (rs : Var) : TableRow.Statement (.lcrIsOneStopBit rd rs) := TableRow.rr_row _ rd rs
theorem TableRow.lcrSetCharLen (rd : Var) (rs : Var) (v : CharLen) : TableRow.Statement (.lcrSetCharLen rd rs v) := TableRow.rri_row _ rd rs _
theorem TableRow.lcrCharLen (rd : Var) (rs : Var) : TableRow.Statement (.lcrCharLen rd rs) := TableRow.rr_row _ rd rs
theorem TableRow.lsrDataReady (rd : Var) (rs : Var) : TableRow.Statement (.lsrDataReady rd rs) := TableRow.rr_row _ rd rs
theorem TableRow.lsrOverrunError (rd : Var) (rs : Var) : TableRow.Statement (.lsrOverrunError rd rs) := TableRow.rr_row _ rd rs
theorem TableRow.lsrParityError (rd : Var) (rs : Var) : TableRow.Statement (.lsrParityError rd rs) := TableRow.rr_row _ rd rs
theorem TableRow.lsrFramingError (rd : Var) (rs : Var) : TableRow.Statement (.lsrFramingError rd rs) := TableRow.rr_row _ rd rs
theorem TableRow.lsrBreakInterrupt (rd : Var) (rs : Var) : TableRow.Statement (.lsrBreakInterrupt rd rs) := TableRow.rr_row _ rd rs
theorem TableRow.lsrThrEmpty (rd : Var) (rs : Var) : TableRow.Statement (.lsrThrEmpty rd rs) := TableRow.rr_row _ rd rs
theorem TableRow.lsrTransmitterEmpty (rd : Var) (rs : Var) : TableRow.Statement (.lsrTransmitterEmpty rd rs) := TableRow.rr_row _ rd rs
theorem TableRow.lsrRxFifoError (rd : Var) (rs : Var) : TableRow.Statement (.lsrRxFifoError rd rs) := TableRow.rr_row _ rd rs
theorem TableRow.writeDivisor (d : BitVec 16) : TableRow.Statement (.writeDivisor d) := TableRow.i16_row _ d
theorem TableRow.read (rd : Var) (base : Byte) (len : Byte) : TableRow.Statement (.read rd base len) := TableRow.x_row _ rd base len
theorem TableRow.write (rd : Var) (base : Byte) (len : Byte) : TableRow.Statement (.write rd base len) := TableRow.x_row _ rd base len

end Sys2Proof.Laws
end

