-- ==== Sys2Proof/Laws/Safety.lean ====
section
/-! SUPPORT. What the trace says of line control after one more access. -/

namespace Sys2Proof.Machine

/-- One more access: a write of line control is the last one, any other access changes nothing. -/
theorem lastLineControl_append (trace : List Access) (a : Access) :
    lastLineControl (trace ++ [a])
      = if a.dir = .write ∧ a.pos = .lcr then some (cellValue a.word) else lastLineControl trace := by
  induction trace with
  | nil => simp [lastLineControl]
  | cons b rest ih => simp only [List.cons_append, lastLineControl, ih]; split_ifs <;> simp

@[simp] theorem dlabKnownClear_nil : dlabKnownClear [] = false := rfl

/-- DLAB known clear after one more access. -/
theorem dlabKnownClear_append (trace : List Access) (a : Access) :
    dlabKnownClear (trace ++ [a])
      = if a.dir = .write ∧ a.pos = .lcr then !(cellValue a.word).getLsbD 7 else dlabKnownClear trace := by
  simp only [dlabKnownClear, lastLineControl_append]; split_ifs <;> rfl

end Sys2Proof.Machine
end

