-- ==== Sys2Proof/Laws/Schedule.lean ====
section
/-! SUPPORT. What handing the turn over can do. -/

namespace Sys2Proof.Machine

/-- Handing over changes neither the parameters nor the trace, and the contexts become one of the choices of
`turnChoices`. -/
theorem State.handOver_spec (s : State) :
    s.handOver.params = s.params ∧ s.handOver.trace = s.trace ∧ s.handOver.env.answers = s.env.answers ∧
      s.handOver.env.draws = s.env.draws ∧ (s.handOver.ctx, s.handOver.others) ∈ turnChoices s.ctx s.others := by
  unfold State.handOver
  split
  · next h => simp [turnChoices]
  · simp only []
    split
    · next p hp =>
      have := List.mem_of_getElem? hp
      exact ⟨rfl, rfl, rfl, rfl, (List.mem_filter.mp this).1⟩
    · exact ⟨rfl, rfl, rfl, rfl, by simp [turnChoices]⟩

@[simp] theorem State.handOver_params (s : State) : s.handOver.params = s.params := s.handOver_spec.1
@[simp] theorem State.handOver_trace (s : State) : s.handOver.trace = s.trace := s.handOver_spec.2.1

/-- With one context the turn stays. -/
theorem State.handOver_alone {s : State} (h : s.others = []) : s.handOver = s := by
  unfold State.handOver
  split
  · rfl
  · next h' => rw [h] at h'; cases h'

/-- The choices: keep the turn, or swap it with one of the others. -/
theorem mem_turnChoices {c : Context} {os : List Context} {p : Context × List Context} :
    p ∈ turnChoices c os ↔ p = (c, os) ∨ ∃ k, ∃ h : k < os.length, p = (os[k], os.set k c) := by
  simp only [turnChoices, List.mem_cons, List.mem_mapIdx]
  constructor
  · rintro (h | ⟨k, h, rfl⟩)
    · exact .inl h
    · exact .inr ⟨k, h, rfl⟩
  · rintro (h | ⟨k, h, rfl⟩)
    · exact .inl h
    · exact .inr ⟨k, h, rfl⟩

end Sys2Proof.Machine
end

