-- ==== Sys2Proof/Laws/Transfer.lean ====
section
/-! SUPPORT. One lemma per row of the transfer machine: what a context's step is in each phase. -/

namespace Sys2Proof.Machine

variable {s : State} {w : Drain}

theorem contextStep_idle (h : s.ctx.phase = .idle) : contextStep s = runWord s := by simp [contextStep, h]

theorem contextStep_div0 {d : BitVec 16} (h : s.ctx.phase = .div0 d) :
    contextStep s = .next ((s.cellRead .lcr).setPhase (.div1 d (s.readByte .lcr))) := by simp [contextStep, h, stepDiv0]

theorem contextStep_div1 {d : BitVec 16} {l : Byte} (h : s.ctx.phase = .div1 d l) :
    contextStep s = .next ((s.cellWrite .lcr (l ||| 0x80#8)).setPhase (.div2 d l)) := by simp [contextStep, h, stepDiv1]

theorem contextStep_div2 {d : BitVec 16} {l : Byte} (h : s.ctx.phase = .div2 d l) :
    contextStep s = .next ((s.cellWrite .data (d.extractLsb' 0 8)).setPhase (.div3 d l)) := by
  simp [contextStep, h, stepDiv2]

theorem contextStep_div3 {d : BitVec 16} {l : Byte} (h : s.ctx.phase = .div3 d l) :
    contextStep s = .next ((s.cellWrite .ier (d.extractLsb' 8 8)).setPhase (.div4 d l)) := by
  simp [contextStep, h, stepDiv3]

theorem contextStep_div4 {d : BitVec 16} {l : Byte} (h : s.ctx.phase = .div4 d l) :
    contextStep s = .next (s.cellWrite .lcr l).endSequence := by simp [contextStep, h, stepDiv4]

/-- `RD_POLL` with the window full: no access. -/
theorem contextStep_rdPoll_full (h : s.ctx.phase = .rdPoll w) (hi : w.i = w.len) : contextStep s = .next (s.endDrain w) := by
  simp [contextStep, h, stepRdPoll, hi]

theorem contextStep_rdPoll_ready (h : s.ctx.phase = .rdPoll w) (hi : w.i ≠ w.len) (hr : flagDataReady (s.readByte .lsr) = true) :
    contextStep s = .next ((s.cellRead .lsr).setPhase (.rdData w)) := by simp [contextStep, h, stepRdPoll, hi, hr]

theorem contextStep_rdPoll_notReady (h : s.ctx.phase = .rdPoll w) (hi : w.i ≠ w.len)
    (hr : flagDataReady (s.readByte .lsr) = false) : contextStep s = .next ((s.cellRead .lsr).endDrain w) := by
  simp [contextStep, h, stepRdPoll, hi, hr]

theorem contextStep_rdData (h : s.ctx.phase = .rdData w) (hb : drainIndex w < Config.bufSize) :
    contextStep s
      = .next (((s.cellRead .data).setBuf (drainIndex w) (s.readByte .data)).setPhase (.rdPoll (drainNext w))) := by
  simp [contextStep, h, stepRdData, hb]

/-- `WR_POLL` with the window sent: no access. -/
theorem contextStep_wrPoll_full (h : s.ctx.phase = .wrPoll w) (hi : w.i = w.len) : contextStep s = .next (s.endDrain w) := by
  simp [contextStep, h, stepWrPoll, hi]

theorem contextStep_wrPoll_ready (h : s.ctx.phase = .wrPoll w) (hi : w.i ≠ w.len) (hr : flagThrEmpty (s.readByte .lsr) = true) :
    contextStep s = .next ((s.cellRead .lsr).setPhase (.wrData w)) := by simp [contextStep, h, stepWrPoll, hi, hr]

theorem contextStep_wrPoll_notReady (h : s.ctx.phase = .wrPoll w) (hi : w.i ≠ w.len)
    (hr : flagThrEmpty (s.readByte .lsr) = false) : contextStep s = .next ((s.cellRead .lsr).endDrain w) := by
  simp [contextStep, h, stepWrPoll, hi, hr]

theorem contextStep_wrData (h : s.ctx.phase = .wrData w) (hb : drainIndex w < Config.bufSize) :
    contextStep s
      = .next ((s.cellWrite .data (s.bufByte (drainIndex w))).setPhase (.wrPoll (drainNext w))) := by
  simp [contextStep, h, stepWrData, hb]

end Sys2Proof.Machine
end

