-- ==== Sys2Proof/Tests/Slice0.lean ====
section
/-! SUPPORT. Tests, their expected results taken from the spec's own tables (spec/30_encoding.md, spec/95_test_vectors.md), and, for each obligation with hypotheses, a witness that meets them. -/

namespace Sys2Proof.Tests

open Sys2Proof.Machine Sys2Proof.Claims

/-! ## Helpers -/

/-- One context: variables, buffer, scripted device, program (spec/95_test_vectors.md section 0). -/
def machine (width : CellWidth) (vars : List (Var × Byte)) (buf : Memory) (script : List (Position × BitVec 32))
    (program : List OpWord) : State :=
  vars.foldl (fun s p => s.setVar p.1 p.2)
    { params := { width := width, base := 0, endian := .little }, ctx := Context.launch program buf, others := [],
      trace := [], env := { Environment.start with answers := script } }

/-- The state after a result, where it is a next state. -/
def stateOf (r : Result) : Option State :=
  match r with
  | .next t => some t
  | .fault _ => none
  | .refused _ => none

/-- The effect of one operation word `op`, `rd = t1`, `rs = t0`, `imm` on `t0 = v`: `t1`, if the word completed with no
access. -/
def pureOn (op imm : BitVec 8) (v : Byte) : Option VarValue :=
  match step (machine .narrow [(0, v)] [] [] [op ++ 0x10#8 ++ 0x00#8 ++ imm]) with
  | .next t => if t.trace = [] ∧ t.ctx.pc = 1 ∧ t.ctx.faults = [] then some (t.var 1) else none
  | .fault _ => none
  | .refused _ => none

/-- One word: the trace as `(dir, idx, value)`, a variable, `pc`. -/
def wordOn (width : CellWidth) (w : OpWord) (vars : List (Var × Byte)) (script : List (Position × BitVec 32)) (x : Var) :
    Option (List Access × VarValue × Nat) :=
  (stateOf (step (machine width vars [] script [w]))).map fun t => (t.trace, t.var x, t.ctx.pc)

/-- What the record and the mark hold after one word. -/
def recordOn (w : OpWord) (vars : List (Var × Byte)) (x : Var) : Option (List FaultEntry × Bool × VarValue × Nat × Nat) :=
  (stateOf (step (machine .narrow vars [] [] [w, 0x01200007#32]))).map fun t =>
    (t.ctx.faults, t.ctx.refused, t.var x, t.ctx.pc, t.trace.length)

def rd8 (pos : Position) (b : Byte) : Access := { dir := .read, pos := pos, word := .narrow b }
def wr8 (pos : Position) (b : Byte) : Access := { dir := .write, pos := pos, word := .narrow b }
def rd32 (pos : Position) (w : BitVec 32) : Access := { dir := .read, pos := pos, word := .wide w }
def wr32 (pos : Position) (w : BitVec 32) : Access := { dir := .write, pos := pos, word := .wide w }

/-- A machine in the middle of a sequence. -/
def midway (width : CellWidth) (buf : Memory) (script : List (Position × BitVec 32)) (w : OpWord) (phase : Phase) : State :=
  (machine width [] buf script [w]).setPhase phase

/-- Two contexts, each with a program. -/
def twoContexts : State :=
  { machine .narrow [] [] [] [0x01200011, 0x01200012] with others := [Context.launch [0x01100022] []] }

/-! ## WellFormed: an ill-formed term for each check -/

theorem test_wellFormed_read_window_refused : (Instr.read 5 255 2).wellFormed = false := by decide
theorem test_wellFormed_write_window_refused : (Instr.write 5 1 0xFF).wellFormed = true ∧ (Instr.write 5 2 0xFF).wellFormed = false := by
  decide
theorem test_wellFormed_read_last_byte : (Instr.read 5 255 1).wellFormed = true := by decide

/-! ## Decoding: words written out from R61 to R63 -/

/-- 40_register_access.md and 95 section 2.1. -/
theorem test_decode_register_access :
    [0x01200041#32, 0x10100000#32, 0x11020000#32, 0x12300000#32, 0x13030000#32, 0x14400000#32, 0x15010000#32, 0x16000000#32, 0x17000000#32, 0x18500000#32, 0x19050000#32, 0x1A300000#32, 0x1B600000#32].map decode
      = [.instr (.li 2 0x41), .instr (.rbrRead 1), .instr (.thrWrite 2), .instr (.ierRead 3), .instr (.ierWrite 3), .instr (.iirRead 4), .instr (.fcrWrite 1), .instr (.lcrRead 0), .instr (.lcrWrite 0), .instr (.mcrRead 5), .instr (.mcrWrite 5), .instr (.lsrRead 3), .instr (.msrRead 6)] := by decide

/-- 95 sections 2.2 and 2.10. -/
theorem test_decode_fifo_and_interrupt_identification :
    [0x20100003#32, 0x21100001#32, 0x22430000#32, 0x28100000#32, 0x29200000#32].map decode
      = [.instr (.fifoAndReset 1 .t14), .instr (.fifoWithoutReset 1 .t4), .instr (.fifoTriggerLevel 4 3), .instr (.iirPendingInterrupts 1 0), .instr (.iirFifosEnabled 2 0)] := by decide

/-- the opcodes of 95 section 2.3. -/
theorem test_decode_interrupt_enable :
    [0x30220000#32, 0x31430000#32, 0x32430000#32, 0x33220000#32, 0x34430000#32, 0x35430000#32, 0x36430000#32, 0x37430000#32, 0x38430000#32, 0x39430000#32, 0x3A430000#32, 0x3BF00000#32].map decode
      = [.instr (.ierEnableRda 2 2), .instr (.ierDisableRda 4 3), .instr (.ierIsRdaEnabled 4 3), .instr (.ierEnableThre 2 2), .instr (.ierDisableThre 4 3), .instr (.ierIsThreEnabled 4 3), .instr (.ierEnableRls 4 3), .instr (.ierDisableRls 4 3), .instr (.ierIsRlsEnabled 4 3), .instr (.ierEnableMs 4 3), .instr (.ierDisableMs 4 3), .instr (.ierIsMsEnabled 15 0)] := by decide

/-- the opcodes of 95 section 2.5 and program P2. -/
theorem test_decode_line_control :
    [0x40000000#32, 0x41430000#32, 0x42430000#32, 0x43430000#32, 0x44430000#32, 0x45100000#32, 0x46430000#32, 0x47000003#32, 0x48510000#32, 0x49000000#32, 0x4A400000#32, 0x4B000002#32, 0x4C200000#32].map decode
      = [.instr (.lcrDefault 0), .instr (.lcrEnableDlrAccess 4 3), .instr (.lcrDisableDlrAccess 4 3), .instr (.lcrEnableBreakControl 4 3), .instr (.lcrDisableBreakControl 4 3), .instr (.lcrEnableStickParity 1 0), .instr (.lcrDisableStickParity 4 3), .instr (.lcrSetParity 0 0 .even), .instr (.lcrParity 5 1), .instr (.lcrSetOneStopBit 0 0 false), .instr (.lcrIsOneStopBit 4 0), .instr (.lcrSetCharLen 0 0 .seven), .instr (.lcrCharLen 2 0)] := by decide

/-- the opcodes of 95 section 2.6. -/
theorem test_decode_line_status :
    [0x50430000#32, 0x51730000#32, 0x52430000#32, 0x53430000#32, 0x54430000#32, 0x55430000#32, 0x56430000#32, 0x570F0000#32].map decode
      = [.instr (.lsrDataReady 4 3), .instr (.lsrOverrunError 7 3), .instr (.lsrParityError 4 3), .instr (.lsrFramingError 4 3), .instr (.lsrBreakInterrupt 4 3), .instr (.lsrThrEmpty 4 3), .instr (.lsrTransmitterEmpty 4 3), .instr (.lsrRxFifoError 0 15)] := by decide

/-- 95 sections 2.7 and 2.9. -/
theorem test_decode_transfer :
    [0x70000C00#32, 0x7170FC04#32, 0x7150FF01#32, 0x72601003#32, 0x72500100#32].map decode
      = [.instr (.writeDivisor 0x0C00), .instr (.read 7 252 4), .instr (.read 5 255 1), .instr (.write 6 0x10 3), .instr (.write 5 1 0)] := by decide

/-- The refusals of 95 section 2.9: check 1, 2, 3, 4. -/
theorem test_decode_refuses_unknown_opcode :
    [0x00000000#32, 0xFF000000#32, 0x02000000#32].map decode = List.replicate 3 (.refused .unknownOpcode) := by decide
theorem test_decode_refuses_unused_field :
    [0x1A310000#32, 0x1A300001#32, 0x11120000#32, 0x01210141#32, 0x50430001#32, 0x21100100#32, 0x70100C00#32,
     0x71510004#32].map decode = List.replicate 8 (.refused .unusedFieldNonzero) := by decide
theorem test_decode_refuses_enumeration :
    [0x47000002#32, 0x47000004#32, 0x4B000004#32, 0x49000002#32, 0x20100004#32].map decode
      = List.replicate 5 (.refused .enumOutOfRange) := by decide
theorem test_decode_refuses_window :
    [0x7150FF02#32, 0x7150FD04#32].map decode = List.replicate 2 (.refused .windowPastBuffer) := by decide

/-- `mask` and `match` of an opcode-table row, numbered as the table numbers bits. -/
theorem test_decodeTableWord :
    decodeTableWord 32 0x01F000FF = some (.li 15 0xFF) ∧ decodeTableWord 32 0x71500004 = some (.read 5 0 4) ∧
      decodeTableWord 32 0 = none := by decide

/-- A word placed where the next step fetches runs as the first word after reset. -/
theorem test_withFetchWord :
    (stateOf (step (State.reset.withFetchWord 32 0x01F000FF))).map (fun t => (t.var 15, t.ctx.pc)) = some (.byte 0xFF, 1) := by
  decide

/-! ## Register access (95 section 2.1): `x` after one word -/

theorem test_li : wordOn .narrow 0x01200041 [] [] 2 = some ([], .byte 0x41, 1) ∧
    wordOn .narrow 0x01F000FF [] [] 15 = some ([], .byte 0xFF, 1) := by decide
theorem test_rbr_read : wordOn .narrow 0x10100000 [] [(.data, 0x5A)] 1 = some ([rd8 .data 0x5A], .byte 0x5A, 1) := by decide
theorem test_ier_read : wordOn .narrow 0x12300000 [] [(.ier, 0x0F)] 3 = some ([rd8 .ier 0x0F], .byte 0x0F, 1) := by decide
theorem test_iir_read : wordOn .narrow 0x14400000 [] [(.iirFcr, 0xC8)] 4 = some ([rd8 .iirFcr 0xC8], .byte 0xC8, 1) := by decide
theorem test_lcr_read : wordOn .narrow 0x16000000 [] [(.lcr, 0x83)] 0 = some ([rd8 .lcr 0x83], .byte 0x83, 1) := by decide
theorem test_mcr_read : wordOn .narrow 0x18500000 [] [(.mcr, 0x0B)] 5 = some ([rd8 .mcr 0x0B], .byte 0x0B, 1) := by decide
theorem test_lsr_read : wordOn .narrow 0x1A300000 [] [(.lsr, 0x60)] 3 = some ([rd8 .lsr 0x60], .byte 0x60, 1) := by decide
theorem test_msr_read : wordOn .narrow 0x1B600000 [] [(.msr, 0xB0)] 6 = some ([rd8 .msr 0xB0], .byte 0xB0, 1) := by decide
theorem test_thr_write : wordOn .narrow 0x11020000 [(2, 0x41)] [] 2 = some ([wr8 .data 0x41], .byte 0x41, 1) := by decide
theorem test_ier_write : wordOn .narrow 0x13030000 [(3, 0xF5)] [] 3 = some ([wr8 .ier 0xF5], .byte 0xF5, 1) := by decide
theorem test_fcr_write : wordOn .narrow 0x15010000 [(1, 0xC7)] [] 1 = some ([wr8 .iirFcr 0xC7], .byte 0xC7, 1) := by decide
theorem test_lcr_write : wordOn .narrow 0x17000000 [(0, 0x1B)] [] 0 = some ([wr8 .lcr 0x1B], .byte 0x1B, 1) := by decide
theorem test_mcr_write : wordOn .narrow 0x19050000 [(5, 0x0B)] [] 5 = some ([wr8 .mcr 0x0B], .byte 0x0B, 1) := by decide

/-- The last row of 95 section 2.1. -/
theorem test_thr_write_unwritten : recordOn 0x11070000 [] 7
    = some ([{ cause := .unwrittenVariable 7, pc := 0 }], false, .unwritten, 0, 0) := by decide

/-- WT1, WT2 (95 section 2.8): `W = 32`. -/
theorem test_wide_accesses :
    wordOn .wide 0x10100000 [] [(.data, 0xFFFFFF48)] 1 = some ([rd32 .data 0xFFFFFF48], .byte 0x48, 1) ∧
    wordOn .wide 0x11020000 [(2, 0xA5)] [] 2 = some ([wr32 .data 0x000000A5], .byte 0xA5, 1) := by decide

/-- 95 section 1.3: the addresses of the wide layout with `BASE = 0x10000000`. -/
theorem test_wide_addresses :
    [Position.lcr, .data, .ier].map (fun p => accessSpan { width := .wide, base := 0x10000000, endian := .little } (rd32 p 0))
      = [(0x1000000C, 4), (0x10000000, 4), (0x10000004, 4)] := by decide

/-! ## FIFO control (95 section 2.2) -/

theorem test_fifo_and_reset :
    [0x20100000#32, 0x20100001#32, 0x20100002#32, 0x20100003#32].map (fun w => wordOn .narrow w [] [] 1)
      = [some ([], .byte 0x07, 1), some ([], .byte 0x47, 1), some ([], .byte 0x87, 1), some ([], .byte 0xC7, 1)] := by decide
theorem test_fifo_without_reset :
    [0x21100000#32, 0x21100001#32, 0x21100002#32, 0x21100003#32].map (fun w => wordOn .narrow w [] [] 1)
      = [some ([], .byte 0x01, 1), some ([], .byte 0x41, 1), some ([], .byte 0x81, 1), some ([], .byte 0xC1, 1)] := by decide

theorem test_fifo_trigger_level : [0x00#8, 0x3F#8, 0x40#8, 0x7F#8, 0x80#8, 0xBF#8, 0xC0#8, 0xFF#8].map (pureOn 0x22 0)
    = [some (.byte 0), some (.byte 0), some (.byte 1), some (.byte 1), some (.byte 2), some (.byte 2), some (.byte 3), some (.byte 3)] := by decide

/-! ## Interrupt enable (95 section 2.3) -/

theorem test_ier_enable_rda : [0x00#8, 0xFF#8, 0x5A#8, 0xF0#8].map (pureOn 0x30 0)
    = [some (.byte 0x01), some (.byte 0xFF), some (.byte 0x5B), some (.byte 0xF1)] := by decide
theorem test_ier_disable_rda : [0x00#8, 0xFF#8, 0x5A#8, 0xF0#8].map (pureOn 0x31 0)
    = [some (.byte 0x00), some (.byte 0xFE), some (.byte 0x5A), some (.byte 0xF0)] := by decide
theorem test_ier_is_rda_enabled : [0x00#8, 0xFF#8, 0x5A#8, 0xF0#8].map (pureOn 0x32 0)
    = [some (.byte 0x00), some (.byte 0x01), some (.byte 0x00), some (.byte 0x00)] := by decide
theorem test_ier_enable_thre : [0x00#8, 0xFF#8, 0x5A#8, 0xF0#8].map (pureOn 0x33 0)
    = [some (.byte 0x02), some (.byte 0xFF), some (.byte 0x5A), some (.byte 0xF2)] := by decide
theorem test_ier_disable_thre : [0x00#8, 0xFF#8, 0x5A#8, 0xF0#8].map (pureOn 0x34 0)
    = [some (.byte 0x00), some (.byte 0xFD), some (.byte 0x58), some (.byte 0xF0)] := by decide
theorem test_ier_is_thre_enabled : [0x00#8, 0xFF#8, 0x5A#8, 0xF0#8].map (pureOn 0x35 0)
    = [some (.byte 0x00), some (.byte 0x01), some (.byte 0x01), some (.byte 0x00)] := by decide
theorem test_ier_enable_rls : [0x00#8, 0xFF#8, 0x5A#8, 0xF0#8].map (pureOn 0x36 0)
    = [some (.byte 0x04), some (.byte 0xFF), some (.byte 0x5E), some (.byte 0xF4)] := by decide
theorem test_ier_disable_rls : [0x00#8, 0xFF#8, 0x5A#8, 0xF0#8].map (pureOn 0x37 0)
    = [some (.byte 0x00), some (.byte 0xFB), some (.byte 0x5A), some (.byte 0xF0)] := by decide
theorem test_ier_is_rls_enabled : [0x00#8, 0xFF#8, 0x5A#8, 0xF0#8].map (pureOn 0x38 0)
    = [some (.byte 0x00), some (.byte 0x01), some (.byte 0x00), some (.byte 0x00)] := by decide
theorem test_ier_enable_ms : [0x00#8, 0xFF#8, 0x5A#8, 0xF0#8].map (pureOn 0x39 0)
    = [some (.byte 0x08), some (.byte 0xFF), some (.byte 0x5A), some (.byte 0xF8)] := by decide
theorem test_ier_disable_ms : [0x00#8, 0xFF#8, 0x5A#8, 0xF0#8].map (pureOn 0x3A 0)
    = [some (.byte 0x00), some (.byte 0xF7), some (.byte 0x52), some (.byte 0xF0)] := by decide
theorem test_ier_is_ms_enabled : [0x00#8, 0xFF#8, 0x5A#8, 0xF0#8].map (pureOn 0x3B 0)
    = [some (.byte 0x00), some (.byte 0x01), some (.byte 0x01), some (.byte 0x00)] := by decide

/-- The same register as source and destination. -/
theorem test_same_register : wordOn .narrow 0x33220000 [(2, 0x01)] [] 2 = some ([], .byte 0x03, 1) := by decide

/-! ## Interrupt identification (95 section 2.4) -/

theorem test_iir_pending_interrupts : [0xC0#8, 0xC1#8, 0xC2#8, 0xC4#8, 0xC6#8, 0xCC#8, 0x31#8].map (pureOn 0x28 0)
    = [some (.byte 0x00), some (.byte 0x01), some (.byte 0x02), some (.byte 0x04), some (.byte 0x06), some (.byte 0x0C), some (.byte 0x01)] := by decide
theorem test_iir_invalid_causes : [0x03#8, 0x05#8, 0x07#8, 0xC8#8, 0xC9#8, 0x0A#8, 0x0B#8, 0x0D#8, 0x0E#8, 0x0F#8].all fun v =>
    recordOn 0x28100000 [(0, v), (1, 0x55)] 1
      == some ([{ cause := .iirInvalidCause v, pc := 0 }], false, .byte 0x55, 0, 0) := by decide
theorem test_iir_fifos_enabled : [0x00#8, 0x3F#8, 0x40#8, 0x80#8, 0xC0#8, 0xFF#8].map (pureOn 0x29 0)
    = [some (.byte 0), some (.byte 0), some (.byte 0), some (.byte 0), some (.byte 1), some (.byte 1)] := by decide

/-! ## Line control (95 section 2.5) -/

theorem test_lcr_default : wordOn .narrow 0x40000000 [] [] 0 = some ([], .byte 0x03, 1) := by decide
theorem test_lcr_enable_dlr_access : [0x00#8, 0xFF#8, 0x03#8, 0x9B#8].map (pureOn 0x41 0)
    = [some (.byte 0x80), some (.byte 0xFF), some (.byte 0x83), some (.byte 0x9B)] := by decide
theorem test_lcr_disable_dlr_access : [0x00#8, 0xFF#8, 0x03#8, 0x9B#8].map (pureOn 0x42 0)
    = [some (.byte 0x00), some (.byte 0x7F), some (.byte 0x03), some (.byte 0x1B)] := by decide
theorem test_lcr_enable_break_control : [0x00#8, 0xFF#8, 0x03#8, 0x9B#8].map (pureOn 0x43 0)
    = [some (.byte 0x40), some (.byte 0xFF), some (.byte 0x43), some (.byte 0xDB)] := by decide
theorem test_lcr_disable_break_control : [0x00#8, 0xFF#8, 0x03#8, 0x9B#8].map (pureOn 0x44 0)
    = [some (.byte 0x00), some (.byte 0xBF), some (.byte 0x03), some (.byte 0x9B)] := by decide
theorem test_lcr_enable_stick_parity : [0x00#8, 0xFF#8, 0x03#8, 0x9B#8].map (pureOn 0x45 0)
    = [some (.byte 0x20), some (.byte 0xFF), some (.byte 0x23), some (.byte 0xBB)] := by decide
theorem test_lcr_disable_stick_parity : [0x00#8, 0xFF#8, 0x03#8, 0x9B#8].map (pureOn 0x46 0)
    = [some (.byte 0x00), some (.byte 0xDF), some (.byte 0x03), some (.byte 0x9B)] := by decide
theorem test_lcr_parity : [0x00#8, 0xFF#8, 0x03#8, 0x9B#8].map (pureOn 0x48 0)
    = [some (.byte 0x00), some (.byte 0x03), some (.byte 0x00), some (.byte 0x03)] := by decide
theorem test_lcr_is_one_stop_bit : [0x00#8, 0xFF#8, 0x03#8, 0x9B#8].map (pureOn 0x4A 0)
    = [some (.byte 0x01), some (.byte 0x00), some (.byte 0x01), some (.byte 0x01)] := by decide
theorem test_lcr_char_len : [0x00#8, 0xFF#8, 0x03#8, 0x9B#8].map (pureOn 0x4C 0)
    = [some (.byte 0x00), some (.byte 0x03), some (.byte 0x03), some (.byte 0x03)] := by decide
theorem test_lcr_set_parity :
    [0, 1, 3].map (fun imm => [0x00#8, 0xFF#8, 0x03#8, 0x9B#8].map (pureOn 0x47 imm))
      = [[some (.byte 0x00), some (.byte 0xE7), some (.byte 0x03), some (.byte 0x83)],
         [some (.byte 0x08), some (.byte 0xEF), some (.byte 0x0B), some (.byte 0x8B)],
         [some (.byte 0x18), some (.byte 0xFF), some (.byte 0x1B), some (.byte 0x9B)]] := by decide
theorem test_lcr_set_one_stop_bit :
    [1, 0].map (fun imm => [0x00#8, 0xFF#8, 0x03#8, 0x9B#8].map (pureOn 0x49 imm))
      = [[some (.byte 0x00), some (.byte 0xFB), some (.byte 0x03), some (.byte 0x9B)],
         [some (.byte 0x04), some (.byte 0xFF), some (.byte 0x07), some (.byte 0x9F)]] := by decide
theorem test_lcr_set_char_len :
    [0, 1, 2, 3].map (fun imm => [0x00#8, 0xFF#8, 0x03#8, 0x9B#8].map (pureOn 0x4B imm))
      = [[some (.byte 0x00), some (.byte 0xFC), some (.byte 0x00), some (.byte 0x98)],
         [some (.byte 0x01), some (.byte 0xFD), some (.byte 0x01), some (.byte 0x99)],
         [some (.byte 0x02), some (.byte 0xFE), some (.byte 0x02), some (.byte 0x9A)],
         [some (.byte 0x03), some (.byte 0xFF), some (.byte 0x03), some (.byte 0x9B)]] := by decide
theorem test_lcr_parity_reserved : [0xE7#8, 0xEF#8, 0xF7#8, 0xFF#8].map (pureOn 0x48 0)
    = [some (.byte 0), some (.byte 1), some (.byte 0), some (.byte 3)] := by decide

/-! ## Line status (95 section 2.6): 0x00, 0xFF, the bit alone, 0xFF without it, 0x60 -/

theorem test_lsr_data_ready : [0x00#8, 0xFF#8, 0x01#8, 0xFE#8, 0x60#8].map (pureOn 0x50 0)
    = [some (.byte 0), some (.byte 1), some (.byte 1), some (.byte 0), some (.byte 0)] := by decide
theorem test_lsr_overrun_error : [0x00#8, 0xFF#8, 0x02#8, 0xFD#8, 0x60#8].map (pureOn 0x51 0)
    = [some (.byte 0), some (.byte 1), some (.byte 1), some (.byte 0), some (.byte 0)] := by decide
theorem test_lsr_parity_error : [0x00#8, 0xFF#8, 0x04#8, 0xFB#8, 0x60#8].map (pureOn 0x52 0)
    = [some (.byte 0), some (.byte 1), some (.byte 1), some (.byte 0), some (.byte 0)] := by decide
theorem test_lsr_framing_error : [0x00#8, 0xFF#8, 0x08#8, 0xF7#8, 0x60#8].map (pureOn 0x53 0)
    = [some (.byte 0), some (.byte 1), some (.byte 1), some (.byte 0), some (.byte 0)] := by decide
theorem test_lsr_break_interrupt : [0x00#8, 0xFF#8, 0x10#8, 0xEF#8, 0x60#8].map (pureOn 0x54 0)
    = [some (.byte 0), some (.byte 1), some (.byte 1), some (.byte 0), some (.byte 0)] := by decide
theorem test_lsr_thr_empty : [0x00#8, 0xFF#8, 0x20#8, 0xDF#8, 0x60#8].map (pureOn 0x55 0)
    = [some (.byte 0), some (.byte 1), some (.byte 1), some (.byte 0), some (.byte 1)] := by decide
theorem test_lsr_transmitter_empty : [0x00#8, 0xFF#8, 0x40#8, 0xBF#8, 0x60#8].map (pureOn 0x56 0)
    = [some (.byte 0), some (.byte 1), some (.byte 1), some (.byte 0), some (.byte 1)] := by decide
theorem test_lsr_rx_fifo_error : [0x00#8, 0xFF#8, 0x80#8, 0x7F#8, 0x60#8].map (pureOn 0x57 0)
    = [some (.byte 0), some (.byte 1), some (.byte 1), some (.byte 0), some (.byte 0)] := by decide

/-! ## Faults and refusals (95 sections 2.9, 2.10) -/

/-- F3: the unwritten operand faults before the decode of its value. -/
theorem test_fault_order_unwritten : recordOn 0x28100000 [] 1
    = some ([{ cause := .unwrittenVariable 0, pc := 0 }], false, .unwritten, 0, 0) := by decide
/-- F4: the refusal comes before the unwritten `t1` is read. -/
theorem test_fault_order_refusal : recordOn 0x47010002 [] 0 = some ([], true, .unwritten, 0, 0) := by decide

/-- A context with a fault recorded, or refused, or completed, has no further step (R141, R65, R20). -/
theorem test_stopped_contexts :
    Context.stopReason { Context.launch [0x01200007] [] with faults := [{ cause := .iirInvalidCause 3, pc := 0 }] }
      = some .contextFaulted ∧
    Context.stopReason { Context.launch [0x01200007] [] with refused := true } = some .contextRefused ∧
    Context.stopReason { Context.launch [0x01200007] [] with pc := 1 } = some .contextCompleted ∧
    Context.stopReason (Context.launch [0x01200007] []) = none := by decide

/-! ## Transfers (95 section 2.7) -/

/-- The decode of a transfer word is a step of its own, with no access. -/
theorem test_transfer_decode :
    (stateOf (step (machine .narrow [] [] [] [0x70000C00]))).map (fun t => (t.ctx.phase, t.ctx.pc, t.trace))
      = some (.div0 0x0C00, 0, []) ∧
    (stateOf (step (machine .narrow [] [] [] [0x7170FC04]))).map (fun t => (t.ctx.phase, t.ctx.pc, t.trace))
      = some (.rdPoll { rd := 7, base := 252, len := 4, i := 0 }, 0, []) ∧
    (stateOf (step (machine .narrow [] [] [] [0x72601003]))).map (fun t => (t.ctx.phase, t.ctx.pc, t.trace))
      = some (.wrPoll { rd := 6, base := 0x10, len := 3, i := 0 }, 0, []) := by decide

/-- DV1 and DV2, WT3: the five accesses in order; `L` is restored exactly, DLAB and all. -/
theorem test_write_divisor :
    (seqWriteDivisor 0x0C00 (machine .narrow [] [] [(.lcr, 0x03)] [])).trace
      = [rd8 .lcr 0x03, wr8 .lcr 0x83, wr8 .data 0x00, wr8 .ier 0x0C, wr8 .lcr 0x03] ∧
    (seqWriteDivisor 0x0C00 (machine .narrow [] [] [(.lcr, 0x83)] [])).trace
      = [rd8 .lcr 0x83, wr8 .lcr 0x83, wr8 .data 0x00, wr8 .ier 0x0C, wr8 .lcr 0x83] ∧
    (seqWriteDivisor 0x0C00 (machine .wide [] [] [(.lcr, 0xDEADBE03)] [])).trace
      = [rd32 .lcr 0xDEADBE03, wr32 .lcr 0x83, wr32 .data 0x00, wr32 .ier 0x0C, wr32 .lcr 0x03] := by decide

/-- Each row of R129 as one step, with the word `0x70000C00` and `L = 0x03` (DV1). -/
theorem test_write_divisor_rows :
    [Phase.div0 0x0C00, .div1 0x0C00 0x03, .div2 0x0C00 0x03, .div3 0x0C00 0x03, .div4 0x0C00 0x03].map (fun p =>
        (stateOf (step (midway .narrow [] [(.lcr, 0x03)] 0x70000C00 p))).map fun t => (t.ctx.phase, t.ctx.pc, t.trace))
      = [some (.div1 0x0C00 0x03, 0, [rd8 .lcr 0x03]), some (.div2 0x0C00 0x03, 0, [wr8 .lcr 0x83]),
         some (.div3 0x0C00 0x03, 0, [wr8 .data 0x00]), some (.div4 0x0C00 0x03, 0, [wr8 .ier 0x0C]),
         some (.idle, 1, [wr8 .lcr 0x03])] := by decide

def bufAA (n : Nat) : Memory := (List.range n).map fun a => (a, 0xAA#8)

/-- RD1, RD2, RD5 and WT4. -/
theorem test_read :
    (let t := seqRead 5 0 4 (machine .narrow [] (bufAA 4)
        [(.lsr, 0x61), (.data, 0x48), (.lsr, 0x61), (.data, 0x69), (.lsr, 0x60)] []);
      (t.var 5, (List.range 4).map t.bufByte, t.trace)
        = (.byte 2, [0x48, 0x69, 0xAA, 0xAA],
           [rd8 .lsr 0x61, rd8 .data 0x48, rd8 .lsr 0x61, rd8 .data 0x69, rd8 .lsr 0x60])) ∧
    (let t := seqRead 5 0 0 (machine .narrow [] (bufAA 2) [] []); (t.var 5, t.ctx.buf, t.trace) = (.byte 0, bufAA 2, [])) ∧
    (let t := seqRead 5 0 2 (machine .wide [] (bufAA 2) [(.lsr, 0x00000061), (.lsr, 0xFFFFFF00), (.data, 0x12345648)] []);
      (t.var 5, (List.range 2).map t.bufByte, t.trace)
        = (.byte 1, [0x48, 0xAA], [rd32 .lsr 0x00000061, rd32 .data 0x12345648, rd32 .lsr 0xFFFFFF00])) := by decide

/-- The rows of R131, each one step: full, not ready, ready, data (RD6's last byte, index 255). -/
theorem test_read_rows :
    [(Phase.rdPoll { rd := 7, base := 252, len := 4, i := 4 }, 0x00#32), (.rdPoll { rd := 7, base := 252, len := 4, i := 3 }, 0x60#32),
     (.rdPoll { rd := 7, base := 252, len := 4, i := 3 }, 0x9F#32), (.rdData { rd := 7, base := 252, len := 4, i := 3 }, 0x00#32)].map
        (fun p => (stateOf (step (midway .narrow [] [(.lsr, p.2), (.data, 0x04)] 0x7170FC04 p.1))).map fun t =>
          ((t.ctx.phase, t.ctx.pc), t.trace, t.var 7, t.bufByte 255))
      = [some ((.idle, 1), [], .byte 4, 0), some ((.idle, 1), [rd8 .lsr 0x60], .byte 3, 0),
         some ((.rdData { rd := 7, base := 252, len := 4, i := 3 }, 0), [rd8 .lsr 0x9F], .unwritten, 0),
         some ((.rdPoll { rd := 7, base := 252, len := 4, i := 4 }, 0), [rd8 .data 0x04], .unwritten, 0x04)] := by decide

/-- WR1, WR3, WR4 and WR5. -/
theorem test_write :
    (let t := seqWrite 6 0x10 3 (machine .narrow [] [(16, 0x41), (17, 0x42), (18, 0x43)] [(.lsr, 0x60), (.lsr, 0x00)] []);
      (t.var 6, t.trace) = (.byte 1, [rd8 .lsr 0x60, wr8 .data 0x41, rd8 .lsr 0x00])) ∧
    (let t := seqWrite 6 0 4 (machine .narrow [] [(0, 0x41)] [(.lsr, 0xDF)] []);
      (t.var 6, t.trace) = (.byte 0, [rd8 .lsr 0xDF])) ∧
    (let t := seqWrite 6 0 0 (machine .narrow [] [] [] []); (t.var 6, t.trace) = (.byte 0, [])) ∧
    (let t := seqWrite 6 0 2 (machine .narrow [] [(0, 0x41), (1, 0x42)] [(.lsr, 0x21), (.lsr, 0x60), (.lsr, 0x40)] []);
      (t.var 6, t.trace) = (.byte 2, [rd8 .lsr 0x21, wr8 .data 0x41, rd8 .lsr 0x60, wr8 .data 0x42])) := by decide

/-- The rows of R133, each one step. -/
theorem test_write_rows :
    [(Phase.wrPoll { rd := 6, base := 254, len := 2, i := 2 }, 0x00#32), (.wrPoll { rd := 6, base := 254, len := 2, i := 1 }, 0xDF#32),
     (.wrPoll { rd := 6, base := 254, len := 2, i := 1 }, 0x20#32), (.wrData { rd := 6, base := 254, len := 2, i := 1 }, 0x00#32)].map
        (fun p => (stateOf (step (midway .narrow [(255, 0x42)] [(.lsr, p.2)] 0x7260FE02 p.1))).map fun t =>
          (t.ctx.phase, t.ctx.pc, t.trace, t.var 6))
      = [some (.idle, 1, [], .byte 2), some (.idle, 1, [rd8 .lsr 0xDF], .byte 1),
         some (.wrData { rd := 6, base := 254, len := 2, i := 1 }, 0, [rd8 .lsr 0x20], .unwritten),
         some (.wrPoll { rd := 6, base := 254, len := 2, i := 2 }, 0, [wr8 .data 0x42], .unwritten)] := by decide

/-- Two contexts: the environment's choice gives the turn to the other one; a finished one never gets it. -/
theorem test_hand_over :
    (stateOf (step { twoContexts with env := { Environment.start with schedule := [1] } })).map (fun t => (t.ctx.program, t.env.schedule))
      = some ([0x01100022], []) ∧
    (stateOf (step { twoContexts with env := { Environment.start with schedule := [4, 9] } })).map
        (fun t => (t.ctx.program, t.env.schedule))
      = some ([0x01200011, 0x01200012], [9]) := by decide

/-! ## Notation and programs (R67, R68, spec/95_test_vectors.md section 3) -/

/-- P1, from its text to its words. -/
theorem test_assemble_p1 :
    assemble ["lcr_init t0", "write_divisor 0x000C", "lcr_write t0", "fifo_init t1, T14", "rmw_ier t2, ier_enable_rda"]
      = some [0x40000000, 0x17000000, 0x7000000C, 0x17000000, 0x20100003, 0x15010000, 0x12200000, 0x30220000, 0x13020000] := by
  decide

/-- R153: the order of P1, the enable value written from a variable. -/
theorem test_bringUp :
    (bringUp 0 0 1 2 0x000C .t14).map encode
      = [0x40000000, 0x17000000, 0x7000000C, 0x17000000, 0x20100003, 0x15010000, 0x13020000] := by decide

/-- R67: what is no operation of the notation is refused. -/
theorem test_assemble_refuses :
    assembleLine "lsr_read t16" = none ∧ assembleLine "lcr_set_parity t0, t0, Mark" = none ∧ assembleLine "li t0" = none ∧
      assembleLine "rmw_lcr t0, lcr_default" = none ∧ assembleLine "rmw_ier t0, lcr_parity" = none ∧
      assembleLine "; only a comment" = some [] := by decide

/-! ## Witnesses: each obligation with hypotheses, met by a concrete state and operands -/

/-- The answers of all seven positions, significant bytes 0x00 to 0x60. -/
def allAnswers : List (Position × BitVec 32) :=
  [(.data, 0x00), (.ier, 0x10), (.iirFcr, 0x20), (.lcr, 0x30), (.mcr, 0x40), (.lsr, 0x50), (.msr, 0x60)]

/-- The same bytes under other upper bits, for the wide cell. -/
def allAnswersWide : List (Position × BitVec 32) :=
  [(.msr, 0xFFFFFF60), (.lsr, 0xABCDEF50), (.mcr, 0x40), (.lcr, 0x12345630), (.iirFcr, 0x20), (.ier, 0x10), (.data, 0x80000000)]

/-- A completed context, a faulted one and a refused one. -/
def completedContext : Context := { Context.launch [0x01100022] [] with pc := 1 }
def faultedContext : Context := { Context.launch [0x11070000] [] with faults := [{ cause := .unwrittenVariable 7, pc := 0 }] }
def refusedContext : Context := { Context.launch [0x00000000] [] with refused := true }

/-- One context ready to run a word, and one with the stopped contexts beside it. -/
def oneWord (w : OpWord) : State := machine .narrow [] [] allAnswers [w]
def amongStopped : State := { oneWord 0x01200041 with others := [completedContext, faultedContext, refusedContext] }

theorem witness_DecodeOfEncodeIsIdentity : (Instr.read 15 255 1).wellFormed = true ∧ (Instr.write 0 0 255).wellFormed = true := by
  decide
theorem witness_EncodeOfDecodeIsIdentity : decode 0x7150FF01 = .instr (.read 5 255 1) := by decide
theorem witness_DecoderRefusesInOrder :
    [0x02000000#32, 0x1A310000#32, 0x47000002#32, 0x7150FF02#32, 0x7150FF01#32].map refusal
      = [some .unknownOpcode, some .unusedFieldNonzero, some .enumOutOfRange, some .windowPastBuffer, none] := by decide

theorem witness_StepRunsTheDecodedInstruction :
    let s := amongStopped
    baseAligned s.params = true ∧ s.ctx.faults = [] ∧ s.ctx.refused = false ∧ s.ctx.phase = .idle ∧
      s.ctx.program[s.ctx.pc]? = some 0x01200041 ∧ decode 0x01200041 = .instr (.li 2 0x41) := by decide
theorem witness_RefusedWordSetsTheMark :
    let s := oneWord 0x47000002
    baseAligned s.params = true ∧ s.ctx.faults = [] ∧ s.ctx.refused = false ∧ s.ctx.phase = .idle ∧
      s.ctx.program[s.ctx.pc]? = some 0x47000002 ∧ decode 0x47000002 = .refused .enumOutOfRange := by decide
theorem witness_StoppedMachineSaysWhy :
    let s := oneWord 0x01200041
    (baseAligned s.params = true ∧ s.others = []) ∧ faultedContext.faults ≠ [] ∧
      (refusedContext.faults = [] ∧ refusedContext.refused = true) ∧
      (completedContext.faults = [] ∧ completedContext.refused = false ∧ completedContext.phase = .idle ∧
        completedContext.pc = completedContext.program.length) := by decide
theorem witness_StoppedContextsStayAsTheyAre :
    (∃ t, step amongStopped = .next t) ∧
      ∀ c, c = completedContext ∨ c = faultedContext ∨ c = refusedContext → c ∈ amongStopped.contexts ∧ c.live = false := by
  refine ⟨⟨_, rfl⟩, ?_⟩
  rintro c (rfl | rfl | rfl) <;> decide
theorem witness_HandOverOnlyPermutesContexts :
    ({ twoContexts with ctx := completedContext }).contexts.any Context.live = true ∧
      ({ twoContexts with ctx := completedContext }).ctx.live = false := by decide
/-- One idle context and one in the middle of each kind of sequence. -/
theorem witness_ContextStepTouchesOnlyItsOwn :
    (∃ t, contextStep (oneWord 0x01200041) = .next t) ∧
      (∃ t, contextStep (midway .narrow [] allAnswers 0x70000C00 (.div4 0x0C00 0x03)) = .next t) ∧
      ∃ t, contextStep (midway .narrow [] allAnswers 0x7150FF01 (.rdData ⟨5, 255, 1, 0⟩)) = .next t :=
  ⟨⟨_, rfl⟩, ⟨_, rfl⟩, ⟨_, rfl⟩⟩
/-- A step that writes its destination, one with the drain's, and four with none (a store, a decode, a refused word, a data phase). -/
theorem witness_PcOnlyAdvancesByOne :
    (∃ t, contextStep (oneWord 0x01200041) = .next t ∧ t.ctx.pc = 1 ∧ t.var 2 ≠ (oneWord 0x01200041).var 2) ∧
      (∃ t, contextStep (oneWord 0x70000C00) = .next t ∧ t.ctx.pc = 0) ∧
      (oneWord 0x01200041).destination = some 2 ∧
      (midway .narrow [] [] 0x7170FC04 (.rdPoll ⟨7, 252, 4, 4⟩)).destination = some 7 ∧
      (midway .narrow [] [] 0x7260FE02 (.wrPoll ⟨6, 254, 2, 2⟩)).destination = some 6 ∧
      [oneWord 0x11020000, oneWord 0x71500004, oneWord 0x47000002,
        midway .narrow [] [] 0x7170FC04 (.rdData ⟨7, 252, 4, 3⟩)].map State.destination = [none, none, none, none] :=
  ⟨⟨_, rfl, rfl, by decide⟩, ⟨_, rfl, rfl⟩, by decide⟩
theorem witness_OnlyTheReceiveDrainWritesTheBuffer :
    (midway .narrow [(0, 0x41)] allAnswers 0x7150FF01 (.rdData ⟨5, 255, 1, 0⟩)).ctx.buf.wf = true ∧
      ∃ t, contextStep (midway .narrow [(0, 0x41)] allAnswers 0x7150FF01 (.rdData ⟨5, 255, 1, 0⟩)) = .next t :=
  ⟨by decide, _, rfl⟩
theorem witness_StepMakesAtMostOneAllowedAccess :
    (∃ t, step (oneWord 0x1A300000) = .next t ∧ t.trace = [rd8 .lsr 0x50]) ∧
      ∃ t, step (oneWord 0x01200041) = .next t ∧ t.trace = [] :=
  ⟨⟨_, rfl, by decide⟩, ⟨_, rfl, rfl⟩⟩
/-- Two machines whose outside differs, but for the device's answers. -/
theorem witness_ContextSeesOnlyTheDevice :
    let s := oneWord 0x1A300000
    let s' := { s with others := [faultedContext], trace := [rd8 .msr 0x11], env := { s.env with draws := 7, turns := 9 } }
    s'.ctx = s.ctx ∧ s'.params = s.params ∧ s'.trace ≠ s.trace ∧ (∀ pos, s'.answer pos = s.answer pos) ∧
      ∃ t, contextStep s = .next t := by
  refine ⟨rfl, rfl, by decide, ?_, _, rfl⟩
  intro pos; cases pos <;> rfl
theorem witness_CellWidthIsTransparent :
    SameButWidth (machine .narrow [] [] allAnswers [0x1A300000]) (machine .wide [] [] allAnswersWide [0x1A300000]) ∧
      (∀ pos, cellValue ((machine .wide [] [] allAnswersWide [0x1A300000]).answer pos)
        = cellValue ((machine .narrow [] [] allAnswers [0x1A300000]).answer pos)) ∧
      (∃ t, step (machine .narrow [] [] allAnswers [0x1A300000]) = .next t) ∧
      step (machine .narrow [] [] allAnswers []) = .fault .contextCompleted ∧
      step { machine .narrow [] [] [] [] with params := ⟨.wide, 2, .big⟩ } = .refused .misalignedBase := by
  refine ⟨⟨rfl, rfl, rfl, rfl, rfl, rfl⟩, ?_, ⟨_, rfl⟩, rfl, rfl⟩
  intro pos; cases pos <;> rfl
theorem witness_StepKeepsTheStateWellFormed :
    amongStopped.wf = true ∧ (midway .wide [(255, 1)] allAnswers 0x7150FF01 (.rdData ⟨5, 255, 1, 0⟩)).wf = true ∧
      ∃ t, step amongStopped = .next t := ⟨by decide, by decide, _, rfl⟩
theorem witness_LiveContextsAlwaysStep :
    amongStopped.wf = true ∧ amongStopped.ctx.live = true ∧
      (midway .narrow [] [] 0x7260FE02 (.wrData ⟨6, 254, 2, 1⟩)).wf = true ∧
      (midway .narrow [] [] 0x7260FE02 (.wrData ⟨6, 254, 2, 1⟩)).ctx.live = true := by decide

theorem witness_ConstructionGivesTheInitialState :
    ∃ s, construct ⟨.wide, 0x10000000, .big⟩ ([0x01200041], [(16, 0x41)]) [([0x01100022], []), ([], [])] Environment.start = some s :=
  ⟨_, rfl⟩
/-- A misaligned base, an aligned one, and a narrow one, where no base is misaligned. -/
theorem witness_MisalignedBaseHasNoRun :
    0x1002 % stride .wide ≠ 0 ∧ 0x1004 % stride .wide = 0 ∧ 0x1003 % stride .narrow = 0 ∧
      ∃ s : State, s.params = { width := .wide, base := 0x1002, endian := .little } :=
  ⟨by decide, by decide, by decide, { State.reset with params := { width := .wide, base := 0x1002, endian := .little } }, rfl⟩
/-- Either width, and the last byte of a wide cell. -/
theorem witness_RegisterMapOffsets : State.reset.params.width = .narrow ∧
    ({ width := .wide, base := 0, endian := .little } : Params).width = .wide ∧ 3 < stride .wide ∧ 0 < stride .narrow := by decide
theorem witness_SignificantByteLane :
    significantByteAddress { width := .narrow, base := 5, endian := .big } .lcr = 8 ∧
      significantByteAddress { width := .wide, base := 0, endian := .little } .msr = 0x18 ∧
      significantByteAddress { width := .wide, base := 0, endian := .big } .msr = 0x1B := by decide
theorem witness_AccessCountsPerOperation :
    (∃ t, exec (.msrRead 6) (oneWord 0) = .next t ∧ t.trace.length = 1) ∧
      (∃ t, exec (.thrWrite 7) (oneWord 0) = .next t ∧ t.trace.length = 0) ∧
      ∃ t, exec (.thrWrite 7) ((oneWord 0).setVar 7 0x41) = .next t ∧ t.trace.length = 1 :=
  ⟨⟨_, rfl, rfl⟩, ⟨_, rfl, rfl⟩, ⟨_, rfl, rfl⟩⟩

/-- The two cases of every operation with an operand (`OnOperand`): a byte, and `unwritten`. Used by the obligations
ViewWritesMakeOneWrite, FifoTriggerLevelDecodes, the Ier, Iir, Lcr and Lsr ones, and UnwrittenOperandRaises. -/
theorem witness_OnOperand :
    ((oneWord 0).setVar 3 0xF0).var 3 = .byte 0xF0 ∧ (oneWord 0).var 3 = .unwritten ∧ operandVar (.ierWrite 3) = some 3 := by
  decide
/-- Both clauses of PendingInterruptsByTheTable, at the edges of the table. -/
theorem witness_PendingInterruptsByTheTable :
    0xCC#8 &&& 0x0F ∈ [0b0001#8, 0b0000#8, 0b0010#8, 0b0100#8, 0b1100#8, 0b0110#8] ∧
      0xC3#8 &&& 0x0F ∉ [0b0001#8, 0b0000#8, 0b0010#8, 0b0100#8, 0b1100#8, 0b0110#8] ∧
      0xFF#8 &&& 0x0F ∉ [0b0001#8, 0b0000#8, 0b0010#8, 0b0100#8, 0b1100#8, 0b0110#8] := by decide
theorem witness_FifoTriggerRoundTrip :
    ∃ i, i = Instr.fifoAndReset 0 .t14 ∨ i = Instr.fifoWithoutReset 0 .t14 := ⟨.fifoAndReset 0 .t14, .inl rfl⟩
theorem witness_EnableDisableLaws : 7 < 8 ∧ 0 < 8 ∧ (6 : Nat) ≠ 7 ∧ (0x83#8).getLsbD 7 = true ∧ (0x03#8).getLsbD 7 = false := by decide
theorem witness_LcrFieldsAreIndependent :
    (∃ b : Nat, b = 5 ∨ b = 6 ∨ b = 7) ∧ (∃ k : Nat, k = 5 ∨ k = 6 ∨ k = 7) ∧ ∃ u, u = setBit 7 0x1B ∨ u = clearBit 7 0x1B := ⟨⟨7, by decide⟩, ⟨5, by decide⟩, _, .inl rfl⟩
theorem witness_OnlyTheTwoFaultsAreRaised :
    (∃ t, exec (.iirPendingInterrupts 1 0) ((oneWord 0).setVar 0 0xC8) = .next t ∧
      t.ctx.faults = [{ cause := .iirInvalidCause 0xC8, pc := 0 }]) ∧
      ∃ t, exec (.lsrDataReady 1 0) (oneWord 0) = .next t ∧ t.ctx.faults = [{ cause := .unwrittenVariable 0, pc := 0 }] :=
  ⟨⟨_, rfl, by decide⟩, ⟨_, rfl, rfl⟩⟩

theorem witness_DivisorRows :
    [Phase.div0 0xFFFF, .div1 0xFFFF 0xFF, .div2 0xFFFF 0xFF, .div3 0xFFFF 0xFF, .div4 0xFFFF 0xFF].all fun p =>
      (midway .narrow [] allAnswers 0x7000FFFF p).ctx.phase == p := by decide
/-- The four clauses: the window full, not ready, ready, and a data phase at the last byte of the buffer. -/
theorem witness_ReadDrainRows :
    (midway .narrow [] [(.lsr, 0x60)] 0x7150FF01 (.rdPoll ⟨5, 255, 1, 1⟩)).ctx.phase = .rdPoll ⟨5, 255, 1, 1⟩ ∧
      (0#8 ≠ 1#8 ∧ (cellValue ((midway .narrow [] [(.lsr, 0x60)] 0x7150FF01 (.rdPoll ⟨5, 255, 1, 0⟩)).answer .lsr)).getLsbD 0 = false) ∧
      (cellValue ((midway .narrow [] [(.lsr, 0x61)] 0x7150FF01 (.rdPoll ⟨5, 255, 1, 0⟩)).answer .lsr)).getLsbD 0 = true ∧
      ((midway .narrow [(255, 1)] [] 0x7150FF01 (.rdData ⟨5, 255, 1, 0⟩)).ctx.buf.wf = true ∧ (255#8).toNat + (0#8).toNat < 256) := by
  decide
theorem witness_WriteDrainRows :
    (midway .narrow [] [(.lsr, 0x60)] 0x7260FE02 (.wrPoll ⟨6, 254, 2, 2⟩)).ctx.phase = .wrPoll ⟨6, 254, 2, 2⟩ ∧
      (1#8 ≠ 2#8 ∧ (cellValue ((midway .narrow [] [(.lsr, 0xDF)] 0x7260FE02 (.wrPoll ⟨6, 254, 2, 1⟩)).answer .lsr)).getLsbD 5 = false) ∧
      (cellValue ((midway .narrow [] [(.lsr, 0x20)] 0x7260FE02 (.wrPoll ⟨6, 254, 2, 1⟩)).answer .lsr)).getLsbD 5 = true ∧
      ((midway .narrow [] [] 0x7260FE02 (.wrData ⟨6, 254, 2, 1⟩)).ctx.phase = .wrData ⟨6, 254, 2, 1⟩ ∧
        (254#8).toNat + (1#8).toNat < 256) := by decide

/-- A state in each of the four phases, at the last byte of the buffer, that steps. -/
theorem witness_DrainsLeaveLineControlAlone :
    ∀ p, p = Phase.rdPoll ⟨5, 255, 1, 0⟩ ∨ p = .rdData ⟨5, 255, 1, 0⟩ ∨ p = .wrPoll ⟨5, 255, 1, 0⟩ ∨ p = .wrData ⟨5, 255, 1, 0⟩ →
      ∃ t, contextStep (midway .narrow [] [(.lsr, 0x21), (.data, 0x7A)] 0x7150FF01 p) = .next t := by
  rintro p (rfl | rfl | rfl | rfl) <;> exact ⟨_, rfl⟩
theorem witness_WriteDivisorMakesFiveAccesses : Ready (oneWord 0x70000C00) (.writeDivisor 0x0C00) :=
  ⟨rfl, rfl, rfl, rfl, rfl, _, rfl, by decide⟩
theorem witness_ReadDrainRefinesThePseudocode : Ready (oneWord 0x7150FF01) (.read 5 255 1) :=
  ⟨rfl, rfl, rfl, rfl, rfl, _, rfl, by decide⟩
theorem witness_WriteDrainRefinesThePseudocode : Ready (oneWord 0x726001FF) (.write 6 1 255) :=
  ⟨rfl, rfl, rfl, rfl, rfl, _, rfl, by decide⟩
theorem witness_DrainsAreBounded :
    Ready (oneWord 0x71500000) (.read 5 0 0) ∧ Ready (oneWord 0x72601003) (.write 6 0x10 3) :=
  ⟨⟨rfl, rfl, rfl, rfl, rfl, _, rfl, by decide⟩, ⟨rfl, rfl, rfl, rfl, rfl, _, rfl, by decide⟩⟩

/-- RD1's device (two bytes ready, then none) and the window at the end of the buffer, full. -/
theorem witness_ReadCountIsTheReadyCount :
    let s := machine .narrow [] (bufAA 4) [(.lsr, 0x61), (.data, 0x48), (.lsr, 0x61), (.data, 0x69), (.lsr, 0x60)] []
    let u := machine .narrow [] [] [(.lsr, 0x01), (.data, 0x04)] []
    (s.ctx.buf.wf = true ∧ (0#8).toNat + (4#8).toNat ≤ 256 ∧ 2 ≤ (4#8).toNat ∧
      (∀ k, k < 2 → (cellValue ((afterReadRounds s (0#8).toNat k).answer .lsr)).getLsbD 0 = true) ∧
      (2 < (4#8).toNat → (cellValue ((afterReadRounds s (0#8).toNat 2).answer .lsr)).getLsbD 0 = false)) ∧
    (u.ctx.buf.wf = true ∧ (255#8).toNat + (1#8).toNat ≤ 256 ∧ 1 ≤ (1#8).toNat ∧
      ∀ k, k < 1 → (cellValue ((afterReadRounds u (255#8).toNat k).answer .lsr)).getLsbD 0 = true) := by decide
/-- WR1's device, and WR5's: the window sent whole. -/
theorem witness_WriteCountIsTheReadyCount :
    let s := machine .narrow [] [(16, 0x41)] [(.lsr, 0x60), (.lsr, 0x00)] []
    let u := machine .narrow [] [(0, 0x41), (1, 0x42)] [(.lsr, 0x21), (.lsr, 0x60), (.lsr, 0x40)] []
    (1 ≤ (3#8).toNat ∧
      (∀ k, k < 1 → (cellValue ((afterWriteRounds s (16#8).toNat k).answer .lsr)).getLsbD 5 = true) ∧
      (1 < (3#8).toNat → (cellValue ((afterWriteRounds s (16#8).toNat 1).answer .lsr)).getLsbD 5 = false)) ∧
    (2 ≤ (2#8).toNat ∧ ∀ k, k < 2 → (cellValue ((afterWriteRounds u (0#8).toNat k).answer .lsr)).getLsbD 5 = true) := by decide

/-- A context in the divisor sequence, another one that reads a register the exclusion leaves free. -/
def divisorBeside (t : List Access) : State :=
  { oneWord 0x1A300000 with others := [(midway .narrow [] [] 0x70000C00 (.div2 0x0C00 0x03)).ctx], trace := t,
                            env := { (oneWord 0).env with schedule := [0] } }
theorem witness_LineControlStaysAsDiv1WroteIt :
    (∃ t, step (divisorBeside [wr8 .lcr 0x83]) = .next t ∧ keepsDivisorExclusion (divisorBeside [wr8 .lcr 0x83]) t = true) ∧
      lineControlAsDiv1Wrote (divisorBeside [wr8 .lcr 0x83]) ∧
      (∃ t, step (midway .narrow [] allAnswers 0x70000C00 (.div1 0x0C00 0x03)) = .next t ∧
        keepsDivisorExclusion (midway .narrow [] allAnswers 0x70000C00 (.div1 0x0C00 0x03)) t = true) ∧
      lineControlAsDiv1Wrote (midway .narrow [] allAnswers 0x70000C00 (.div1 0x0C00 0x03)) := by
  refine ⟨⟨_, rfl, by decide⟩, ?_, ⟨_, rfl, by decide⟩, ?_⟩
  · intro c hc d l hp
    rcases List.mem_cons.1 hc with rfl | hc
    · rcases hp with hp | hp <;> cases hp
    · obtain rfl := List.mem_singleton.1 hc
      rcases hp with hp | hp <;> cases hp
      decide
  · intro c hc d l hp
    obtain rfl := List.mem_singleton.1 hc
    rcases hp with hp | hp <;> cases hp

/-- Both ways an access is no hazard, one that is, an aggregate constructed, and a DIV4 that restores bit 7 clear. -/
theorem witness_DlabHazardUnlessWrittenClear :
    dlabHazard [] (rd8 .data 0) = true ∧ dlabHazard [] (rd8 .lsr 0) = false ∧
      dlabHazard [wr8 .lcr 0x83, wr8 .lcr 0x03, rd8 .lcr 0x83] (wr8 .ier 0) = false ∧
      dlabHazard [wr8 .lcr 0x03, wr8 .lcr 0x83] (wr8 .ier 0) = true ∧
      (∃ s, construct State.reset.params ([], []) [] Environment.start = some s) ∧
      (∃ t, contextStep (midway .narrow [] [] 0x70000C00 (.div4 0x0C00 0x7F)) = .next t) ∧ (0x7F#8).getLsbD 7 = false :=
  ⟨by decide, by decide, by decide, by decide, ⟨_, rfl⟩, ⟨_, rfl⟩, by decide⟩
theorem witness_PseudoOperationsExpand :
    parseVar "t0".toList = some 0 ∧ parseVar "t15".toList = some 15 ∧ 0 < ierOperations.length ∧ 0 < lcrOperations.length ∧
      0 < lcrSetters.length ∧ 0 < triggerNames.length := by decide

end Sys2Proof.Tests
end

