-- ==== Sys2Proof/Proofs/Construction.lean ====
section
/-! SUPPORT. What construction gives (R25): the fields of a launched context, when `construct` answers a state and which one, and the obligation on the initial state. -/

namespace Sys2Proof.Machine

/-! ### `Context.launch` -/

section Launch

variable (program : List OpWord) (buf : Memory)

@[simp] theorem Context.launch_vars : (Context.launch program buf).vars = Vector.replicate 16 .unwritten := rfl
@[simp] theorem Context.launch_buf : (Context.launch program buf).buf = buf := rfl
@[simp] theorem Context.launch_program : (Context.launch program buf).program = program := rfl
@[simp] theorem Context.launch_pc : (Context.launch program buf).pc = 0 := rfl
@[simp] theorem Context.launch_phase : (Context.launch program buf).phase = .idle := rfl
@[simp] theorem Context.launch_faults : (Context.launch program buf).faults = [] := rfl
@[simp] theorem Context.launch_refused : (Context.launch program buf).refused = false := rfl

end Launch

/-! ### `construct` -/

section Construct

variable {p : Params} {first : List OpWord × Memory} {further : List (List OpWord × Memory)} {env : Environment} {s : State}

/-- Construction succeeds exactly for an aligned `BASE` (R36), with one launched context per launch and nothing traced. -/
theorem construct_eq_some_iff :
    construct p first further env = some s ↔
      baseAligned p = true ∧
        s = { params := p, ctx := Context.launch first.1 first.2,
              others := further.map fun l => Context.launch l.1 l.2, trace := [], env := env } := by
  unfold construct
  split
  · next h => simp [h, eq_comm]
  · next h => simp [h]

theorem contexts_of_construct (h : construct p first further env = some s) :
    s.contexts = (first :: further).map fun l => Context.launch l.1 l.2 := by
  obtain ⟨-, rfl⟩ := construct_eq_some_iff.mp h
  rfl

end Construct

end Sys2Proof.Machine

namespace Sys2Proof

open Sys2Proof.Machine

/-- Settles O19: every context constructed is the launch of one of the programs and buffers asked for. -/
theorem constructionGivesTheInitialState : Obligations.ConstructionGivesTheInitialState := by
  intro p first further env s h
  have hcontexts : ∀ c ∈ s.contexts,
      (∀ r : Var, c.vars[r] = .unwritten) ∧ c.pc = 0 ∧ c.phase = .idle ∧ c.faults = [] ∧ c.refused = false := by
    intro c hc
    rw [contexts_of_construct h] at hc
    obtain ⟨l, -, rfl⟩ := List.mem_map.mp hc
    simp
  obtain ⟨-, rfl⟩ := construct_eq_some_iff.mp h
  refine ⟨rfl, rfl, rfl, rfl, hcontexts, ?_⟩
  simp [Function.comp_def]

end Sys2Proof
end

section
/-! SUPPORT. The bus (20_memory.md): what a cell holds (R31), what a cell access does and leaves unchanged (R32, R33), when `BASE` is aligned (R36), and that a step makes at most one access (R37). -/

namespace Sys2Proof.Machine

open Sys2Proof.Claims

/-! ### Cells -/

/-- R31: the invariant of `from` and `value`. -/
@[simp] theorem cellValue_cellOfByte (w : CellWidth) (v : Byte) : cellValue (cellOfByte w v) = v := by
  cases w with
  | narrow => rfl
  | wide => exact (BitVec.setWidth_setWidth_of_le v (by decide)).trans (BitVec.setWidth_eq v)

@[simp] theorem cellWidthOf_cellOfByte (w : CellWidth) (v : Byte) : cellWidthOf (cellOfByte w v) = w := by cases w <;> rfl

@[simp] theorem cellWidthOf_cellOfAnswer (w : CellWidth) (a : BitVec 32) : cellWidthOf (cellOfAnswer w a) = w := by
  cases w <;> rfl

@[simp] theorem State.cellWidthOf_answer (s : State) (pos : Position) : cellWidthOf (s.answer pos) = s.params.width :=
  cellWidthOf_cellOfAnswer _ _

/-! ### One cell access: its trace entry and its frame -/

section CellAccess

variable (s : State) (pos : Position) (v : Byte)

theorem oneRead_cellRead : OneRead s (s.cellRead pos) pos := ⟨rfl, rfl⟩
theorem keepsSetup_cellRead : KeepsSetup s (s.cellRead pos) := ⟨rfl, rfl, rfl, fun _ => rfl⟩
theorem keepsVars_cellRead : KeepsVars s (s.cellRead pos) := s.var_cellRead pos
theorem keepsRecords_cellRead : KeepsRecords s (s.cellRead pos) := ⟨rfl, rfl, rfl⟩

theorem oneWrite_cellWrite : OneWrite s (s.cellWrite pos v) pos v := ⟨rfl, rfl⟩
theorem keepsSetup_cellWrite : KeepsSetup s (s.cellWrite pos v) := ⟨rfl, rfl, rfl, fun _ => rfl⟩
theorem keepsVars_cellWrite : KeepsVars s (s.cellWrite pos v) := s.var_cellWrite pos v
theorem keepsRecords_cellWrite : KeepsRecords s (s.cellWrite pos v) := ⟨rfl, rfl, rfl⟩

end CellAccess

/-! ### Alignment -/

theorem baseAligned_iff (p : Params) : baseAligned p = true ↔ p.base % stride p.width = 0 := beq_iff_eq

/-- A position lies a whole number of strides from `BASE` (R27). -/
theorem positionAddress_mod_stride (p : Params) (pos : Position) :
    positionAddress p pos % stride p.width = p.base % stride p.width :=
  Nat.add_mul_mod_self_right _ _ _

/-- Construction is refused exactly when `BASE` is misaligned. -/
theorem construct_isSome (p : Params) (first : List OpWord × Memory) (further : List (List OpWord × Memory))
    (env : Environment) : (construct p first further env).isSome = baseAligned p := by
  unfold construct
  cases baseAligned p <;> rfl

theorem step_of_misaligned {s : State} (h : baseAligned s.params = false) : step s = .refused .misalignedBase := by
  simp [step, machineStep, h]

/-! ### At most one access in a step -/

/-- The trace of `t` is that of `s` with at most one access more, as wide as the cells of `s` and no write of a read-only
position. -/
def AtMostOneAccess (s t : State) : Prop :=
  t.trace = s.trace ∨
    ∃ a, t.trace = s.trace ++ [a] ∧ cellWidthOf a.word = s.params.width ∧ (a.dir = .write → a.pos ≠ .lsr ∧ a.pos ≠ .msr)

section AtMostOneAccess

variable {s t : State}

theorem AtMostOneAccess.of_read (pos : Position) (h : t.trace = (s.cellRead pos).trace) : AtMostOneAccess s t :=
  .inr ⟨_, h, s.cellWidthOf_answer pos, nofun⟩

theorem AtMostOneAccess.of_write (pos : Position) (v : Byte) (hl : pos ≠ .lsr) (hm : pos ≠ .msr)
    (h : t.trace = (s.cellWrite pos v).trace) : AtMostOneAccess s t :=
  .inr ⟨_, h, cellWidthOf_cellOfByte _ v, fun _ => ⟨hl, hm⟩⟩

theorem ExecShape.atMostOneAccess {i : Instr} (h : ExecShape i s t) : AtMostOneAccess s t := by
  cases h with
  | reads pos => exact .of_read pos rfl
  | writes pos rs v _ _ hl hm => exact .of_write pos v hl hm rfl
  | completes | unwritten | invalidCause | loadsDivisor | loadsRead | loadsWrite => exact .inl rfl

theorem StepShape.atMostOneAccess (h : StepShape s t) : AtMostOneAccess s t := by
  cases h with
  | word w i t _ _ _ he => exact he.atMostOneAccess
  | refusedWord | pollFull => exact .inl rfl
  | div0 => exact .of_read .lcr rfl
  | div1 d l => exact .of_write .lcr (l ||| 0x80#8) (by decide) (by decide) rfl
  | div2 d => exact .of_write .data (d.extractLsb' 0 8) (by decide) (by decide) rfl
  | div3 d => exact .of_write .ier (d.extractLsb' 8 8) (by decide) (by decide) rfl
  | div4 d l => exact .of_write .lcr l (by decide) (by decide) rfl
  | pollNotReady | rdReady | wrReady => exact .of_read .lsr rfl
  | rdData => exact .of_read .data rfl
  | wrData w => exact .of_write .data (s.bufByte (drainIndex w)) (by decide) (by decide) rfl

/-- Handing over makes no access. -/
theorem AtMostOneAccess.handOver (h : AtMostOneAccess s t) : AtMostOneAccess s t.handOver := by
  simpa [AtMostOneAccess] using h

theorem step_atMostOneAccess (h : step s = .next t) : AtMostOneAccess s t := by
  rcases step_next h with ⟨u, -, hu, rfl⟩ | ⟨-, rfl⟩
  · exact (contextStep_shape hu).atMostOneAccess.handOver
  · exact .inl s.handOver_trace

end AtMostOneAccess

end Sys2Proof.Machine

namespace Sys2Proof

open Sys2Proof.Machine

/-- Settles O24: zero-extension and truncation undo each other, and the low 8 bits are the truncation. -/
theorem cellValueOfByte : Obligations.CellValueOfByte :=
  fun w x => ⟨cellValue_cellOfByte w x, rfl, rfl, fun _ => BitVec.setWidth_eq_extractLsb' (by decide)⟩

/-- Settles O25: each access with its frame, and the span by the definition of the stride. -/
theorem cellAccessesAreSingle : Obligations.CellAccessesAreSingle := by
  intro s pos v
  refine ⟨⟨oneRead_cellRead s pos, rfl, keepsSetup_cellRead s pos, keepsVars_cellRead s pos, rfl,
    keepsRecords_cellRead s pos⟩, ?_, fun dir word => rfl⟩
  exact ⟨oneWrite_cellWrite s pos v, keepsSetup_cellWrite s pos v, keepsVars_cellWrite s pos v, rfl,
    keepsRecords_cellWrite s pos v⟩

/-- Settles O20: construction and the step both look at `baseAligned`, and every position is as aligned as `BASE`. -/
theorem misalignedBaseHasNoRun : Obligations.MisalignedBaseHasNoRun := by
  refine fun p => ⟨fun hp => ?_, fun hp => ?_⟩
  · have hf : baseAligned p = false := by simpa [← baseAligned_iff] using hp
    refine ⟨fun first further env => ?_, fun s hs => step_of_misaligned (hs ▸ hf)⟩
    rw [← Option.not_isSome_iff_eq_none, construct_isSome, hf]
    exact Bool.false_ne_true
  · refine ⟨fun first further env => ?_, fun pos => (positionAddress_mod_stride p pos).trans hp⟩
    rw [construct_isSome, baseAligned_iff]
    exact hp

/-- Settles O13, from the shapes of a context's step: handing the turn over or passing it on adds no access. -/
theorem stepMakesAtMostOneAllowedAccess : Obligations.StepMakesAtMostOneAllowedAccess :=
  fun _ _ => step_atMostOneAccess

end Sys2Proof
end

section
/-! SUPPORT. The cell width is transparent (R34): two machines alike but for the width stay alike under every update of the state, every operation, every row of the transfer machine and the hand-over, so a step of the one is matched by a step of the other. -/

namespace Sys2Proof.Machine

open Sys2Proof.Claims

/-! ### The shared operation behind each instruction -/

/-- The meanings an operation can have: one of the shared operations, `iir_pending_interrupts`, or a transfer machine loaded. -/
inductive Meaning : (State → Result) → Prop where
  | const (rd : Var) (v : Byte) : Meaning (constOp rd v)
  | pure (rd rs : Var) (f : Byte → Byte) : Meaning (pureOp rd rs f)
  | viewRead (pos : Position) (rd : Var) : Meaning (viewRead pos rd)
  | viewWrite (pos : Position) (rs : Var) : Meaning (viewWrite pos rs)
  | pendingInterrupts (rd rs : Var) : Meaning (execIirPendingInterrupts rd rs)
  | loads (p : Phase) : Meaning fun s => .next (s.setPhase p)

theorem exec_meaning : ∀ i : Instr, Meaning (exec i)
  | .li _ _ | .fifoAndReset _ _ | .fifoWithoutReset _ _ | .lcrDefault _ => .const _ _
  | .rbrRead _ | .ierRead _ | .iirRead _ | .lcrRead _ | .mcrRead _ | .lsrRead _ | .msrRead _ => .viewRead _ _
  | .thrWrite _ | .ierWrite _ | .fcrWrite _ | .lcrWrite _ | .mcrWrite _ => .viewWrite _ _
  | .iirPendingInterrupts _ _ => .pendingInterrupts _ _
  | .writeDivisor _ | .read _ _ _ | .write _ _ _ => .loads _
  | .fifoTriggerLevel _ _ | .iirFifosEnabled _ _ => .pure _ _ _
  | .ierEnableRda _ _ | .ierDisableRda _ _ | .ierIsRdaEnabled _ _ | .ierEnableThre _ _ | .ierDisableThre _ _
  | .ierIsThreEnabled _ _ | .ierEnableRls _ _ | .ierDisableRls _ _ | .ierIsRlsEnabled _ _ | .ierEnableMs _ _
  | .ierDisableMs _ _ | .ierIsMsEnabled _ _ => .pure _ _ _
  | .lcrEnableDlrAccess _ _ | .lcrDisableDlrAccess _ _ | .lcrEnableBreakControl _ _ | .lcrDisableBreakControl _ _
  | .lcrEnableStickParity _ _ | .lcrDisableStickParity _ _ | .lcrSetParity _ _ _ | .lcrParity _ _
  | .lcrSetOneStopBit _ _ _ | .lcrIsOneStopBit _ _ | .lcrSetCharLen _ _ _ | .lcrCharLen _ _ => .pure _ _ _
  | .lsrDataReady _ _ | .lsrOverrunError _ _ | .lsrParityError _ _ | .lsrFramingError _ _ | .lsrBreakInterrupt _ _
  | .lsrThrEmpty _ _ | .lsrTransmitterEmpty _ _ | .lsrRxFifoError _ _ => .pure _ _ _

end Sys2Proof.Machine

namespace Sys2Proof.Claims

open Sys2Proof.Machine

/-! ### States alike but for the width -/

section Updates

variable {s s' : State} (h : SameButWidth s s')
include h

/-- An update of the context whose turn it is keeps the states alike. -/
theorem SameButWidth.mapCtx (f : Context → Context) :
    SameButWidth { s with ctx := f s.ctx } { s' with ctx := f s'.ctx } :=
  { h with ctx := congrArg f h.ctx }

theorem SameButWidth.advancePc : SameButWidth s.advancePc s'.advancePc := h.mapCtx fun c => { c with pc := c.pc + 1 }

theorem SameButWidth.setPhase (p : Phase) : SameButWidth (s.setPhase p) (s'.setPhase p) :=
  h.mapCtx fun c => { c with phase := p }

theorem SameButWidth.setVar (r : Var) (v : Byte) : SameButWidth (s.setVar r v) (s'.setVar r v) :=
  h.mapCtx fun c => { c with vars := c.vars.set r (.byte v) }

theorem SameButWidth.setBuf (a : Nat) (b : Byte) : SameButWidth (s.setBuf a b) (s'.setBuf a b) :=
  h.mapCtx fun c => { c with buf := memWrite c.buf a b }

theorem SameButWidth.raise (cause : FaultCause) : SameButWidth (s.raise cause) (s'.raise cause) :=
  h.mapCtx fun c => { c with faults := c.faults ++ [{ cause := cause, pc := c.pc }] }

theorem SameButWidth.refuseWord : SameButWidth s.refuseWord s'.refuseWord := h.mapCtx fun c => { c with refused := true }

theorem SameButWidth.complete (r : Var) (v : Byte) : SameButWidth (s.complete r v) (s'.complete r v) :=
  (h.setVar r v).advancePc

theorem SameButWidth.endSequence : SameButWidth s.endSequence s'.endSequence := (h.setPhase .idle).advancePc

theorem SameButWidth.endDrain (w : Drain) : SameButWidth (s.endDrain w) (s'.endDrain w) := (h.setVar w.rd w.i).endSequence

/-- Accesses to the same position whose words have the same significant byte keep the states alike. -/
theorem SameButWidth.emit (dir : Direction) (pos : Position) {w w' : CellWord} (hw : cellValue w' = cellValue w) :
    SameButWidth (s.emit dir pos w) (s'.emit dir pos w') :=
  { h with trace := by simp [h.trace, hw] }

theorem SameButWidth.drawAnswer (pos : Position) : SameButWidth (s.drawAnswer pos) (s'.drawAnswer pos) :=
  { h with }

theorem SameButWidth.cellRead {pos : Position} (hb : s'.readByte pos = s.readByte pos) :
    SameButWidth (s.cellRead pos) (s'.cellRead pos) :=
  (h.emit .read pos hb).drawAnswer pos

theorem SameButWidth.cellWrite (pos : Position) (v : Byte) : SameButWidth (s.cellWrite pos v) (s'.cellWrite pos v) :=
  h.emit .write pos (by simp)

theorem SameButWidth.var (r : Var) : s'.var r = s.var r := by simp [State.var, h.ctx]

theorem SameButWidth.bufByte (a : Nat) : s'.bufByte a = s.bufByte a := by simp [State.bufByte, h.ctx]

theorem SameButWidth.fetch : s'.fetch = s.fetch := by simp [State.fetch, h.ctx]

theorem SameButWidth.liveChoices : liveChoices s' = liveChoices s := by simp [Machine.liveChoices, h.ctx, h.others]

theorem SameButWidth.turnChoice : s'.env.turnChoice = s.env.turnChoice := by
  simp [Environment.turnChoice, h.schedule, h.turns]

theorem SameButWidth.afterTurn :
    SameButWidth { s with env := s.env.afterTurn } { s' with env := s'.env.afterTurn } :=
  { h with schedule := congrArg List.tail h.schedule, turns := congrArg (· + 1) h.turns }

/-- The hand-over looks at the contexts and the schedule only, and both are the same. -/
theorem SameButWidth.handOver : SameButWidth s.handOver s'.handOver := by
  unfold State.handOver
  rw [h.others, h.liveChoices, h.turnChoice]
  cases s.others with
  | nil => exact h
  | cons o os =>
    cases (Machine.liveChoices s)[s.env.turnChoice % (Machine.liveChoices s).length]? with
    | some p => exact { h.afterTurn with ctx := rfl, others := rfl }
    | none => exact { h.afterTurn with others := rfl }

end Updates

end Sys2Proof.Claims

namespace Sys2Proof.Machine

open Sys2Proof.Claims

/-! ### Answers alike but for the width -/

/-- Both machines answer the same: next states alike but for the width, the same fault, or the same refusal. -/
inductive SameAnswer : Result → Result → Prop where
  | next {t t' : State} (h : SameButWidth t t') : SameAnswer (.next t) (.next t')
  | fault (f : Fault) : SameAnswer (.fault f) (.fault f)
  | refused (q : Refusal) : SameAnswer (.refused q) (.refused q)

theorem SameAnswer.ite {c : Prop} [Decidable c] {a a' b b' : Result} (ha : SameAnswer a a') (hb : SameAnswer b b') :
    SameAnswer (if c then a else b) (if c then a' else b') := by
  split
  · exact ha
  · exact hb

theorem SameAnswer.thenHandOver {r r' : Result} (h : SameAnswer r r') : SameAnswer (thenHandOver r) (thenHandOver r') := by
  cases h with
  | next h => exact .next h.handOver
  | fault f => exact .fault f
  | refused q => exact .refused q

theorem SameAnswer.exists_next {t : State} {r' : Result} (h : SameAnswer (.next t) r') :
    ∃ t', r' = .next t' ∧ SameButWidth t t' := by
  cases h with
  | next h => exact ⟨_, rfl, h⟩

theorem SameAnswer.eq_fault {f : Fault} {r' : Result} (h : SameAnswer (.fault f) r') : r' = .fault f := by
  cases h with
  | fault => rfl

theorem SameAnswer.eq_refused {q : Refusal} {r' : Result} (h : SameAnswer (.refused q) r') : r' = .refused q := by
  cases h with
  | refused => rfl

section Steps

variable {s s' : State}

theorem withOperand_sameAnswer (h : SameButWidth s s') (rs : Var) {k k' : Byte → Result}
    (hk : ∀ v, SameAnswer (k v) (k' v)) : SameAnswer (withOperand rs s k) (withOperand rs s' k') := by
  unfold withOperand
  rw [h.var rs]
  cases s.var rs with
  | byte v => exact hk v
  | unwritten => exact .next (h.raise _)

variable (h : SameButWidth s s') (hdev : ∀ pos, s'.readByte pos = s.readByte pos)
include h

theorem pendingInterrupts_sameAnswer (rd rs : Var) :
    SameAnswer (execIirPendingInterrupts rd rs s) (execIirPendingInterrupts rd rs s') := by
  refine withOperand_sameAnswer h rs fun v => ?_
  cases decodeCause (causeField v) with
  | some p => exact .next (h.complete rd _)
  | none => exact .next (h.raise _)

include hdev

theorem Meaning.sameAnswer {m : State → Result} (hm : Meaning m) : SameAnswer (m s) (m s') := by
  cases hm with
  | const rd v => exact .next (h.complete rd v)
  | pure rd rs f => exact withOperand_sameAnswer h rs fun v => .next (h.complete rd (f v))
  | viewRead pos rd =>
    rw [viewRead_eq, viewRead_eq, hdev pos]
    exact .next ((h.cellRead (hdev pos)).complete rd _)
  | viewWrite pos rs => exact withOperand_sameAnswer h rs fun v => .next (h.cellWrite pos v).advancePc
  | pendingInterrupts rd rs => exact pendingInterrupts_sameAnswer h rd rs
  | loads p => exact .next (h.setPhase p)

theorem runWord_sameAnswer : SameAnswer (runWord s) (runWord s') := by
  unfold runWord
  rw [h.fetch]
  cases s.fetch with
  | none => exact .fault _
  | some w =>
    dsimp only
    cases decode w with
    | instr i => exact (exec_meaning i).sameAnswer h hdev
    | refused e => exact .next h.refuseWord

theorem stepDiv0_sameAnswer (d : BitVec 16) : SameAnswer (stepDiv0 d s) (stepDiv0 d s') := by
  unfold stepDiv0
  rw [hdev .lcr]
  exact .next ((h.cellRead (hdev .lcr)).setPhase _)

theorem stepRdPoll_sameAnswer (w : Drain) : SameAnswer (stepRdPoll w s) (stepRdPoll w s') := by
  have hread := h.cellRead (hdev .lsr)
  unfold stepRdPoll
  rw [hdev .lsr]
  exact .ite (.next (h.endDrain w)) (.ite (.next (hread.setPhase _)) (.next (hread.endDrain w)))

theorem stepRdData_sameAnswer (w : Drain) : SameAnswer (stepRdData w s) (stepRdData w s') := by
  unfold stepRdData
  rw [hdev .data]
  exact .ite (.next (((h.cellRead (hdev .data)).setBuf _ _).setPhase _)) (.fault _)

theorem stepWrPoll_sameAnswer (w : Drain) : SameAnswer (stepWrPoll w s) (stepWrPoll w s') := by
  have hread := h.cellRead (hdev .lsr)
  unfold stepWrPoll
  rw [hdev .lsr]
  exact .ite (.next (h.endDrain w)) (.ite (.next (hread.setPhase _)) (.next (hread.endDrain w)))

omit hdev in
theorem stepWrData_sameAnswer (w : Drain) : SameAnswer (stepWrData w s) (stepWrData w s') := by
  unfold stepWrData
  rw [h.bufByte]
  exact .ite (.next ((h.cellWrite .data _).setPhase _)) (.fault _)

theorem contextStep_sameAnswer : SameAnswer (contextStep s) (contextStep s') := by
  unfold contextStep
  rw [h.ctx]
  cases s.ctx.phase with
  | idle => exact runWord_sameAnswer h hdev
  | div0 d => exact stepDiv0_sameAnswer h hdev d
  | div1 d l => exact .next ((h.cellWrite .lcr _).setPhase _)
  | div2 d l => exact .next ((h.cellWrite .data _).setPhase _)
  | div3 d l => exact .next ((h.cellWrite .ier _).setPhase _)
  | div4 d l => exact .next (h.cellWrite .lcr l).endSequence
  | rdPoll w => exact stepRdPoll_sameAnswer h hdev w
  | rdData w => exact stepRdData_sameAnswer h hdev w
  | wrPoll w => exact stepWrPoll_sameAnswer h hdev w
  | wrData w => exact stepWrData_sameAnswer h w

theorem step_sameAnswer : SameAnswer (step s) (step s') := by
  unfold step machineStep passTurn
  rw [h.aligned, h.ctx, h.others]
  refine .ite ?_ (.refused _)
  cases s.ctx.stopReason with
  | none => exact (contextStep_sameAnswer h hdev).thenHandOver
  | some r => exact .ite (.next h.handOver) (.fault r)

end Steps

end Sys2Proof.Machine

namespace Sys2Proof

open Sys2Proof.Machine

/-- Settles O15: the two machines answer alike, whatever kind of answer the first one gives. -/
theorem cellWidthIsTransparent : Obligations.CellWidthIsTransparent := by
  intro s s' h hdev
  have hstep : SameAnswer (step s) (step s') := step_sameAnswer h hdev
  refine ⟨fun t ht => ?_, fun f hf => ?_, fun q hq => ?_⟩
  · rw [ht] at hstep; exact hstep.exists_next
  · rw [hf] at hstep; exact hstep.eq_fault
  · rw [hq] at hstep; exact hstep.eq_refused

end Sys2Proof
end

section
/-! SUPPORT. The decoder against the four checks of R64 on the fields as numbers: the fields (R61), which format (R62) decodes each opcode of R63, and for each format when its words are refused. -/

namespace Sys2Proof

open Sys2Proof.Claims

/-! ### Why a word is refused -/

/-- The reason of a refusal, `none` for an accepted word. -/
def Decoded.why : Decoded → Option DecodeError
  | .instr _ => none
  | .refused e => some e

theorem Decoded.eq_refused_iff (d : Decoded) (e : DecodeError) : d = .refused e ↔ d.why = some e := by
  cases d with
  | instr i => exact ⟨nofun, nofun⟩
  | refused e' => simp [Decoded.why]

theorem Decoded.exists_instr_iff (d : Decoded) : (∃ i, d = .instr i) ↔ d.why = none := by
  cases d with
  | instr i => exact ⟨fun _ => rfl, fun _ => ⟨i, rfl⟩⟩
  | refused e => exact ⟨nofun, nofun⟩

@[simp] theorem why_instr (i : Instr) : (Decoded.instr i).why = none := rfl

@[simp] theorem why_whenUnusedZero (b : Bool) (k : Decoded) :
    (whenUnusedZero b k).why = if b then k.why else some .unusedFieldNonzero := by
  cases b <;> rfl

@[simp] theorem why_whenInRange (o : Option Instr) :
    (whenInRange o).why = if o.isSome then none else some .enumOutOfRange := by
  cases o <;> rfl

@[simp] theorem why_whenWindowFits (base len : Byte) (i : Instr) :
    (whenWindowFits base len i).why = if 256 < base.toNat + len.toNat then some .windowPastBuffer else none := by
  by_cases h : 256 < base.toNat + len.toNat <;>
    simp [whenWindowFits, windowInBuffer, Config.bufSize, h, Nat.not_le.mpr, Nat.not_lt.mp, Decoded.why]

/-! ### The fields of a word as numbers -/

section Fields

variable (w : OpWord)

theorem toNat_op_ofWord : (Fields.ofWord w).op.toNat = opField w := by
  have := w.isLt
  simp only [Fields.ofWord, opField, BitVec.extractLsb'_toNat, Nat.shiftRight_eq_div_pow]
  omega

theorem toNat_rd_ofWord : (Fields.ofWord w).rd.toNat = rdField w := by
  simp only [Fields.ofWord, rdField, BitVec.extractLsb'_toNat, Nat.shiftRight_eq_div_pow]

theorem toNat_rs_ofWord : (Fields.ofWord w).rs.toNat = rsField w := by
  simp only [Fields.ofWord, rsField, BitVec.extractLsb'_toNat, Nat.shiftRight_eq_div_pow]

theorem toNat_immHi_ofWord : (Fields.ofWord w).immHi.toNat = hiField w := by
  simp only [Fields.ofWord, Fields.immHi, hiField, BitVec.extractLsb'_toNat, Nat.shiftRight_eq_div_pow]
  omega

theorem toNat_immLo_ofWord : (Fields.ofWord w).immLo.toNat = loField w := by
  simp only [Fields.ofWord, Fields.immLo, loField, BitVec.extractLsb'_toNat, Nat.shiftRight_eq_div_pow]
  omega

theorem toNat_imm_ofWord : (Fields.ofWord w).imm.toNat = hiField w * 2 ^ 8 + loField w := by
  rw [Fields.imm_eq_append, toNat_append_eq, toNat_immHi_ofWord, toNat_immLo_ofWord]

end Fields

theorem beq_zero_eq_toNat_beq_zero {n : Nat} (x : BitVec n) : (x == 0#n) = (x.toNat == 0) := by
  rw [Bool.eq_iff_iff]
  simp [BitVec.toNat_eq]

section ZeroFields

variable (w : OpWord)

theorem rd_ofWord_beq_zero : ((Fields.ofWord w).rd == 0#4) = (rdField w == 0) := by
  rw [beq_zero_eq_toNat_beq_zero, toNat_rd_ofWord]
theorem rs_ofWord_beq_zero : ((Fields.ofWord w).rs == 0#4) = (rsField w == 0) := by
  rw [beq_zero_eq_toNat_beq_zero, toNat_rs_ofWord]
theorem immHi_ofWord_beq_zero : ((Fields.ofWord w).immHi == 0#8) = (hiField w == 0) := by
  rw [beq_zero_eq_toNat_beq_zero, toNat_immHi_ofWord]
theorem imm_ofWord_beq_zero : ((Fields.ofWord w).imm == 0#16) = (hiField w == 0 && loField w == 0) := by
  rw [beq_zero_eq_toNat_beq_zero, toNat_imm_ofWord, Bool.eq_iff_iff]
  simp

end ZeroFields

/-! ### The enumeration immediates -/

theorem isSome_triggerOfImm (v : Byte) : (TriggerLevel.ofImm v).isSome = decide (v.toNat ≤ 3) := by
  by_cases h : v.toNat ≤ 3 <;> simp [TriggerLevel.ofImm, h]

theorem isSome_charLenOfImm (v : Byte) : (CharLen.ofImm v).isSome = decide (v.toNat ≤ 3) := by
  by_cases h : v.toNat ≤ 3 <;> simp [CharLen.ofImm, h]

theorem isSome_parityOfImm (v : Byte) : (Parity.ofImm v).isSome = decide (v.toNat ∈ [0, 1, 3]) := by
  revert v; decide

theorem isSome_stopBitOfImm (v : Byte) : (stopBitOfImm v).isSome = decide (v.toNat ≤ 1) := by
  revert v; decide

/-! ### The format that decodes each opcode -/

/-- The opcodes of R63, of every format. -/
def knownOpcodes : List Nat :=
  opcodesRD ++ opcodesRS ++ opcodesRR ++ opcodesRRI ++ opcodesRI ++ opcodesI16 ++ opcodesX

section Formats

variable {f : Fields}

theorem Fields.op_mem_of_toNat_mem {l : List Nat} (h : f.op.toNat ∈ l) : f.op ∈ l.map (BitVec.ofNat 8) :=
  List.mem_map.mpr ⟨_, h, by simp⟩

theorem decodeFields_eq_formRD (h : f.op.toNat ∈ opcodesRD) : ∃ k, decodeFields f = formRD f k := by
  have hop := Fields.op_mem_of_toNat_mem h
  obtain ⟨op, rd, rs, imm⟩ := f
  fin_cases hop <;> exact ⟨_, rfl⟩

theorem decodeFields_eq_formRS (h : f.op.toNat ∈ opcodesRS) : ∃ k, decodeFields f = formRS f k := by
  have hop := Fields.op_mem_of_toNat_mem h
  obtain ⟨op, rd, rs, imm⟩ := f
  fin_cases hop <;> exact ⟨_, rfl⟩

theorem decodeFields_eq_formRR (h : f.op.toNat ∈ opcodesRR) : ∃ k, decodeFields f = formRR f k := by
  have hop := Fields.op_mem_of_toNat_mem h
  obtain ⟨op, rd, rs, imm⟩ := f
  fin_cases hop <;> exact ⟨_, rfl⟩

theorem decodeFields_eq_formI16 (h : f.op.toNat ∈ opcodesI16) : ∃ k, decodeFields f = formI16 f k := by
  have hop := Fields.op_mem_of_toNat_mem h
  obtain ⟨op, rd, rs, imm⟩ := f
  fin_cases hop
  exact ⟨_, rfl⟩

theorem decodeFields_eq_formX (h : f.op.toNat ∈ opcodesX) : ∃ k, decodeFields f = formX f k := by
  have hop := Fields.op_mem_of_toNat_mem h
  obtain ⟨op, rd, rs, imm⟩ := f
  fin_cases hop <;> exact ⟨_, rfl⟩

/-- `enumInRange` on the opcode and the immediate apart, as `decodeFields` sees them (R64 check 3). -/
def enumAdmits (op v : Nat) : Bool :=
  if op = 0x20 ∨ op = 0x21 ∨ op = 0x4B then decide (v ≤ 3)
  else if op = 0x47 then decide (v ∈ [0, 1, 3])
  else if op = 0x49 then decide (v ≤ 1)
  else true

theorem decodeFields_eq_formRRI (h : f.op.toNat ∈ opcodesRRI) :
    ∃ k, decodeFields f = formRRI f k ∧ ∀ rd rs v, (k rd rs v).isSome = enumAdmits f.op.toNat v.toNat := by
  have hop := Fields.op_mem_of_toNat_mem h
  obtain ⟨op, rd, rs, imm⟩ := f
  fin_cases hop
  · exact ⟨_, rfl, fun rd rs v => Option.isSome_map.trans (isSome_parityOfImm v)⟩
  · exact ⟨_, rfl, fun rd rs v => Option.isSome_map.trans (isSome_stopBitOfImm v)⟩
  · exact ⟨_, rfl, fun rd rs v => Option.isSome_map.trans (isSome_charLenOfImm v)⟩

theorem decodeFields_eq_formRI (h : f.op.toNat ∈ opcodesRI) :
    ∃ k, decodeFields f = formRI f k ∧ ∀ rd v, (k rd v).isSome = enumAdmits f.op.toNat v.toNat := by
  have hop := Fields.op_mem_of_toNat_mem h
  obtain ⟨op, rd, rs, imm⟩ := f
  fin_cases hop
  · exact ⟨fun rd v => some (.li rd v), rfl, fun _ _ => rfl⟩
  · exact ⟨_, rfl, fun rd v => Option.isSome_map.trans (isSome_triggerOfImm v)⟩
  · exact ⟨_, rfl, fun rd v => Option.isSome_map.trans (isSome_triggerOfImm v)⟩

theorem decodeFields_of_unknown (h : f.op.toNat ∉ knownOpcodes) : decodeFields f = .refused .unknownOpcode := by
  unfold decodeFields
  split
  case h_55 => rfl
  all_goals next hop => exact absurd (by rw [hop]; decide) h

end Formats

/-! ### The checks on the words of each format -/

section Checks

variable {w : OpWord}

theorem enumInRange_eq (w : OpWord) : enumInRange w = enumAdmits (opField w) (loField w) := rfl

theorem enumInRange_of_not_mem (h : opField w ∉ opcodesRRI ++ opcodesRI) : enumInRange w = true := by
  simp only [opcodesRRI, opcodesRI, List.mem_append, List.mem_cons, List.not_mem_nil, or_false, not_or] at h
  simp [enumInRange, h]

theorem refusal_of_unknown (h : opField w ∉ knownOpcodes) : refusal w = some .unknownOpcode := if_pos h

theorem refusal_of_known (h : opField w ∈ knownOpcodes) :
    refusal w =
      if unusedZero w then
        if enumInRange w then
          if opField w ∈ opcodesX ∧ 256 < hiField w + loField w then some .windowPastBuffer else none
        else some .enumOutOfRange
      else some .unusedFieldNonzero := by
  have hchecks : refusal w = _ := if_neg (not_not_intro h)
  rw [hchecks]
  cases unusedZero w <;> cases enumInRange w <;> rfl

/-- A format without an enumeration immediate and without a window has check 2 only. -/
theorem refusal_of_mem_plain (h : opField w ∈ opcodesRD ++ opcodesRS ++ opcodesRR ++ opcodesI16) :
    refusal w = if unusedZero w then none else some .unusedFieldNonzero := by
  obtain ⟨hknown, henum, hX⟩ := (by decide : ∀ n ∈ opcodesRD ++ opcodesRS ++ opcodesRR ++ opcodesI16,
    n ∈ knownOpcodes ∧ n ∉ opcodesRRI ++ opcodesRI ∧ n ∉ opcodesX) _ h
  rw [refusal_of_known hknown]
  simp [enumInRange_of_not_mem henum, hX]

/-- A format with an enumeration immediate has no window. -/
theorem refusal_of_mem_enum (h : opField w ∈ opcodesRRI ++ opcodesRI) :
    refusal w =
      if unusedZero w then if enumInRange w then none else some .enumOutOfRange else some .unusedFieldNonzero := by
  obtain ⟨hknown, hX⟩ := (by decide : ∀ n ∈ opcodesRRI ++ opcodesRI, n ∈ knownOpcodes ∧ n ∉ opcodesX) _ h
  rw [refusal_of_known hknown]
  simp [hX]

theorem refusal_of_mem_X (h : opField w ∈ opcodesX) :
    refusal w =
      if unusedZero w then if 256 < hiField w + loField w then some .windowPastBuffer else none
      else some .unusedFieldNonzero := by
  obtain ⟨hknown, henum⟩ := (by decide : ∀ n ∈ opcodesX, n ∈ knownOpcodes ∧ n ∉ opcodesRRI ++ opcodesRI) _ h
  rw [refusal_of_known hknown]
  simp [enumInRange_of_not_mem henum, h]

theorem unusedZero_of_mem_RD (h : opField w ∈ opcodesRD) :
    unusedZero w = (rsField w == 0 && hiField w == 0 && loField w == 0) := if_pos h

theorem unusedZero_of_mem_RS (h : opField w ∈ opcodesRS) :
    unusedZero w = (rdField w == 0 && hiField w == 0 && loField w == 0) := by
  have hRD := (by decide : ∀ n ∈ opcodesRS, n ∉ opcodesRD) _ h
  simp only [unusedZero, hRD, h, if_true, if_false]

theorem unusedZero_of_mem_RR (h : opField w ∈ opcodesRR) : unusedZero w = (hiField w == 0 && loField w == 0) := by
  obtain ⟨hRD, hRS⟩ := (by decide : ∀ n ∈ opcodesRR, n ∉ opcodesRD ∧ n ∉ opcodesRS) _ h
  simp only [unusedZero, hRD, hRS, h, if_true, if_false]

theorem unusedZero_of_mem_RRI (h : opField w ∈ opcodesRRI) : unusedZero w = (hiField w == 0) := by
  obtain ⟨hRD, hRS, hRR⟩ := (by decide : ∀ n ∈ opcodesRRI, n ∉ opcodesRD ∧ n ∉ opcodesRS ∧ n ∉ opcodesRR) _ h
  simp only [unusedZero, hRD, hRS, hRR, h, if_true, if_false]

theorem unusedZero_of_mem_RI (h : opField w ∈ opcodesRI) : unusedZero w = (rsField w == 0 && hiField w == 0) := by
  obtain ⟨hRD, hRS, hRR, hRRI⟩ := (by decide : ∀ n ∈ opcodesRI,
    n ∉ opcodesRD ∧ n ∉ opcodesRS ∧ n ∉ opcodesRR ∧ n ∉ opcodesRRI) _ h
  simp only [unusedZero, hRD, hRS, hRR, hRRI, h, if_true, if_false]

theorem unusedZero_of_mem_I16 (h : opField w ∈ opcodesI16) : unusedZero w = (rdField w == 0 && rsField w == 0) := by
  obtain ⟨hRD, hRS, hRR, hRRI, hRI⟩ := (by decide : ∀ n ∈ opcodesI16,
    n ∉ opcodesRD ∧ n ∉ opcodesRS ∧ n ∉ opcodesRR ∧ n ∉ opcodesRRI ∧ n ∉ opcodesRI) _ h
  simp only [unusedZero, hRD, hRS, hRR, hRRI, hRI, h, if_true, if_false]

theorem unusedZero_of_mem_X (h : opField w ∈ opcodesX) : unusedZero w = (rsField w == 0) := by
  obtain ⟨hRD, hRS, hRR, hRRI, hRI, hI16⟩ := (by decide : ∀ n ∈ opcodesX,
    n ∉ opcodesRD ∧ n ∉ opcodesRS ∧ n ∉ opcodesRR ∧ n ∉ opcodesRRI ∧ n ∉ opcodesRI ∧ n ∉ opcodesI16) _ h
  simp only [unusedZero, hRD, hRS, hRR, hRRI, hRI, hI16, if_false]

end Checks

/-! ### The decoder and the checks agree -/

section Agree

variable {w : OpWord}

theorem why_decode_of_mem_RD (h : opField w ∈ opcodesRD) : (decode w).why = refusal w := by
  obtain ⟨k, hk⟩ := decodeFields_eq_formRD (f := Fields.ofWord w) (by rwa [toNat_op_ofWord])
  rw [refusal_of_mem_plain (by simp [h]), unusedZero_of_mem_RD h, decode, hk]
  simp [formRD, rs_ofWord_beq_zero, imm_ofWord_beq_zero, and_assoc]

theorem why_decode_of_mem_RS (h : opField w ∈ opcodesRS) : (decode w).why = refusal w := by
  obtain ⟨k, hk⟩ := decodeFields_eq_formRS (f := Fields.ofWord w) (by rwa [toNat_op_ofWord])
  rw [refusal_of_mem_plain (by simp [h]), unusedZero_of_mem_RS h, decode, hk]
  simp [formRS, rd_ofWord_beq_zero, imm_ofWord_beq_zero, and_assoc]

theorem why_decode_of_mem_RR (h : opField w ∈ opcodesRR) : (decode w).why = refusal w := by
  obtain ⟨k, hk⟩ := decodeFields_eq_formRR (f := Fields.ofWord w) (by rwa [toNat_op_ofWord])
  rw [refusal_of_mem_plain (by simp [h]), unusedZero_of_mem_RR h, decode, hk]
  simp [formRR, imm_ofWord_beq_zero]

theorem why_decode_of_mem_RRI (h : opField w ∈ opcodesRRI) : (decode w).why = refusal w := by
  obtain ⟨k, hk, hsome⟩ := decodeFields_eq_formRRI (f := Fields.ofWord w) (by rwa [toNat_op_ofWord])
  rw [refusal_of_mem_enum (by simp [h]), unusedZero_of_mem_RRI h, enumInRange_eq, decode, hk]
  simp [formRRI, immHi_ofWord_beq_zero, hsome, toNat_op_ofWord, toNat_immLo_ofWord]

theorem why_decode_of_mem_RI (h : opField w ∈ opcodesRI) : (decode w).why = refusal w := by
  obtain ⟨k, hk, hsome⟩ := decodeFields_eq_formRI (f := Fields.ofWord w) (by rwa [toNat_op_ofWord])
  rw [refusal_of_mem_enum (by simp [h]), unusedZero_of_mem_RI h, enumInRange_eq, decode, hk]
  simp [formRI, rs_ofWord_beq_zero, immHi_ofWord_beq_zero, hsome, toNat_op_ofWord, toNat_immLo_ofWord]

theorem why_decode_of_mem_I16 (h : opField w ∈ opcodesI16) : (decode w).why = refusal w := by
  obtain ⟨k, hk⟩ := decodeFields_eq_formI16 (f := Fields.ofWord w) (by rwa [toNat_op_ofWord])
  rw [refusal_of_mem_plain (by simp [h]), unusedZero_of_mem_I16 h, decode, hk]
  simp [formI16, rd_ofWord_beq_zero, rs_ofWord_beq_zero]

theorem why_decode_of_mem_X (h : opField w ∈ opcodesX) : (decode w).why = refusal w := by
  obtain ⟨k, hk⟩ := decodeFields_eq_formX (f := Fields.ofWord w) (by rwa [toNat_op_ofWord])
  rw [refusal_of_mem_X h, unusedZero_of_mem_X h, decode, hk]
  simp [formX, rs_ofWord_beq_zero, toNat_immHi_ofWord, toNat_immLo_ofWord]

theorem why_decode_of_unknown (h : opField w ∉ knownOpcodes) : (decode w).why = refusal w := by
  rw [decode, decodeFields_of_unknown (by rwa [toNat_op_ofWord]), refusal_of_unknown h]
  rfl

/-- The decoder refuses a word for the reason the four checks give first, format by format. -/
theorem why_decode (w : OpWord) : (decode w).why = refusal w := by
  by_cases h : opField w ∈ knownOpcodes
  · simp only [knownOpcodes, List.mem_append] at h
    rcases h with (((((hRD | hRS) | hRR) | hRRI) | hRI) | hI16) | hX
    · exact why_decode_of_mem_RD hRD
    · exact why_decode_of_mem_RS hRS
    · exact why_decode_of_mem_RR hRR
    · exact why_decode_of_mem_RRI hRRI
    · exact why_decode_of_mem_RI hRI
    · exact why_decode_of_mem_I16 hI16
    · exact why_decode_of_mem_X hX
  · exact why_decode_of_unknown h

end Agree

/-- Settles O3: the reason the decoder gives is the first one of the four checks, and there is none when it accepts. -/
theorem decoderRefusesInOrder : Obligations.DecoderRefusesInOrder := by
  intro w
  rw [← why_decode w]
  exact ⟨(decode w).eq_refused_iff, (decode w).exists_instr_iff⟩

end Sys2Proof
end

section
/-! SUPPORT. The effect vocabulary of the claims and the register-view accesses (40_register_access.md): how effects chain, the effect of ending an operation and of a fault, the word of a format's fields (R61, R62), and what an operation with one of the shared meanings therefore does. -/

namespace Sys2Proof.Claims

open Sys2Proof.Machine

/-! ### Effects one after the other -/

section Chain

variable {s u t : State} {pos : Position} {v : Byte} {rd : Var}

theorem KeepsSetup.trans (h : KeepsSetup s u) (h' : KeepsSetup u t) : KeepsSetup s t where
  params := h'.params.trans h.params
  others := h'.others.trans h.others
  program := h'.program.trans h.program
  bytes a := (h'.bytes a).trans (h.bytes a)

theorem KeepsRecords.trans (h : KeepsRecords s u) (h' : KeepsRecords u t) : KeepsRecords s t where
  phase := h'.phase.trans h.phase
  faults := h'.faults.trans h.faults
  refused := h'.refused.trans h.refused

theorem KeepsVars.trans (h : KeepsVars s u) (h' : KeepsVars u t) : KeepsVars s t := fun r => (h' r).trans (h r)

theorem KeepsVars.setsVar (h : KeepsVars s u) (h' : SetsVar u t rd v) : SetsVar s t rd v :=
  ⟨h'.1, fun r hr => (h'.2 r hr).trans (h r)⟩

theorem OneRead.noAccess (h : OneRead s u pos) (h' : NoAccess u t) : OneRead s t pos :=
  ⟨h'.1.trans h.1, h'.2.trans h.2⟩

theorem OneWrite.noAccess (h : OneWrite s u pos v) (h' : NoAccess u t) : OneWrite s t pos v :=
  ⟨h'.1.trans h.1, h'.2.trans h.2⟩

end Chain

/-! ### The effect of `advancePc`, `complete` and `raise` -/

section Updates

variable (s : State)

theorem noAccess_advancePc : NoAccess s s.advancePc := ⟨rfl, rfl⟩
theorem keepsSetup_advancePc : KeepsSetup s s.advancePc := ⟨rfl, rfl, rfl, fun _ => rfl⟩
theorem keepsVars_advancePc : KeepsVars s s.advancePc := s.var_advancePc
theorem keepsRecords_advancePc : KeepsRecords s s.advancePc := ⟨rfl, rfl, rfl⟩

theorem computes_complete (rd : Var) (v : Byte) : Computes s (s.complete rd v) rd v :=
  ⟨⟨s.var_complete_same rd v, fun _ => s.var_complete_other v⟩, rfl, ⟨rfl, rfl⟩, ⟨rfl, rfl, rfl, fun _ => rfl⟩,
    ⟨rfl, rfl, rfl⟩⟩

/-- R141: a context with a fault on record has no further step. -/
theorem stopReason_raise (cause : FaultCause) : (s.raise cause).ctx.stopReason = some .contextFaulted := by
  simp [Context.stopReason]

theorem raises_raise (cause : FaultCause) : Raises s (s.raise cause) cause :=
  ⟨rfl, rfl, s.var_raise cause, ⟨rfl, rfl⟩, ⟨rfl, rfl, rfl, fun _ => rfl⟩, rfl, rfl, stopReason_raise s cause⟩

end Updates

/-! ### The word of a format's fields -/

section Words

theorem varField_eq_varBits (x : Var) : varField x = varBits x := by
  apply BitVec.eq_of_toNat_eq
  simp [varField, varBits]

/-- `word` has the immediate in two bytes, `toWord` in one piece. -/
theorem toWord_eq_word (op : BitVec 8) (rd rs : BitVec 4) (hi lo : Byte) :
    (Fields.mk op rd rs (hi ++ lo)).toWord = word op rd rs hi lo := by
  apply BitVec.eq_of_toNat_eq
  simp only [Fields.toNat_toWord, word, toNat_append_eq]
  omega

theorem toWord_fieldsRD (op : BitVec 8) (rd : Var) : (fieldsRD op rd).toWord = word op (varBits rd) 0 0 0 := by
  rw [← varField_eq_varBits, ← toWord_eq_word]; rfl

theorem toWord_fieldsRS (op : BitVec 8) (rs : Var) : (fieldsRS op rs).toWord = word op 0 (varBits rs) 0 0 := by
  rw [← varField_eq_varBits, ← toWord_eq_word]; rfl

theorem toWord_fieldsRI (op : BitVec 8) (rd : Var) (v : Byte) :
    (fieldsRI op rd v).toWord = word op (varBits rd) 0 0 v := by
  rw [← varField_eq_varBits, ← toWord_eq_word]; rfl

end Words

/-! ### What an operation with a shared meaning does -/

section Operations

variable {op : BitVec 8} {pos : Position}

/-- An operation that reads its operand first has the effect of what follows, or the fault of R140. -/
theorem onOperand_of_withOperand {i : Instr} {rs : Var} {effect : State → Byte → State → Prop} {k : State → Byte → Result}
    (hexec : ∀ s, exec i s = withOperand rs s (k s)) (heffect : ∀ s v, ∃ t, k s v = .next t ∧ effect s v t) :
    OnOperand i rs effect := by
  refine fun s => ⟨fun v hv => ?_, fun hv => ⟨s.raise (.unwrittenVariable rs), ?_, raises_raise s _⟩⟩
  · rw [hexec, withOperand_byte hv]
    exact heffect s v
  · rw [hexec, withOperand_unwritten hv]

theorem constRI_of_constOp {i : Var → Instr} {code v : Byte} (hfields : ∀ rd, encodeFields (i rd) = fieldsRI op rd code)
    (hexec : ∀ rd, exec (i rd) = constOp rd v) : ConstRI op i code v := by
  refine fun rd => ⟨?_, fun s => ⟨s.complete rd v, ?_, computes_complete s rd v⟩⟩
  · rw [encode, hfields, toWord_fieldsRI]
  · rw [hexec, constOp_eq]

theorem readsView_of_viewRead {i : Var → Instr} (hfields : ∀ rd, encodeFields (i rd) = fieldsRD op rd)
    (hexec : ∀ rd, exec (i rd) = viewRead pos rd) : ReadsView op i pos := by
  refine fun rd => ⟨?_, fun s => ⟨(s.cellRead pos).complete rd (s.readByte pos), ?_, ?_⟩⟩
  · rw [encode, hfields, toWord_fieldsRD]
  · rw [hexec, viewRead_eq]
  · obtain ⟨hset, hpc, hnone, hsetup, hrecords⟩ := computes_complete (s.cellRead pos) rd (s.readByte pos)
    exact ⟨(keepsVars_cellRead s pos).setsVar hset, hpc, (oneRead_cellRead s pos).noAccess hnone,
      (keepsSetup_cellRead s pos).trans hsetup, (keepsRecords_cellRead s pos).trans hrecords⟩

theorem writesView_of_viewWrite {i : Var → Instr} (hfields : ∀ rs, encodeFields (i rs) = fieldsRS op rs)
    (hexec : ∀ rs, exec (i rs) = viewWrite pos rs) : WritesView op i pos := by
  refine fun rs => ⟨?_, onOperand_of_withOperand (congrFun (hexec rs)) fun s v => ⟨_, rfl, ?_⟩⟩
  · rw [encode, hfields, toWord_fieldsRS]
  · exact ⟨(keepsVars_cellWrite s pos v).trans (keepsVars_advancePc _), rfl,
      (oneWrite_cellWrite s pos v).noAccess (noAccess_advancePc _),
      (keepsSetup_cellWrite s pos v).trans (keepsSetup_advancePc _),
      (keepsRecords_cellWrite s pos v).trans (keepsRecords_advancePc _)⟩

end Operations

end Sys2Proof.Claims

namespace Sys2Proof

open Sys2Proof.Claims

/-- Settles O26: `li` is the constant operation of opcode `0x01` in format `RI`. -/
theorem liLoadsItsByte : Obligations.LiLoadsItsByte :=
  fun _ => constRI_of_constOp (fun _ => rfl) fun _ => rfl

/-- Settles O27: each of the seven is the view read of its position in format `RD`. -/
theorem viewReadsMakeOneRead : Obligations.ViewReadsMakeOneRead := by
  refine ⟨?rbr, ?ier, ?iir, ?lcr, ?mcr, ?lsr, ?msr⟩
  all_goals exact readsView_of_viewRead (fun _ => rfl) fun _ => rfl

/-- Settles O28: each of the five is the view write of its position in format `RS`. -/
theorem viewWritesMakeOneWrite : Obligations.ViewWritesMakeOneWrite := by
  refine ⟨?thr, ?ier, ?fcr, ?lcr, ?mcr⟩
  all_goals exact writesView_of_viewWrite (fun _ => rfl) fun _ => rfl

end Sys2Proof
end

section
/-! SUPPORT. FIFO control (41_fifo_control.md): the trigger level as bits [7:6] (R51), the word of format `RR` and what a pure operation therefore does (R62, R69), and the encoders' constants (R50). -/

namespace Sys2Proof

/-- R51: every 2-bit code is the code of the level it decodes to. -/
@[simp] theorem TriggerLevel.code_ofCode (c : BitVec 2) : (TriggerLevel.ofCode c).code = c := by
  revert c
  decide

end Sys2Proof

namespace Sys2Proof.Machine

/-- R86: bits [7:6], zero-extended, are the byte shifted down by 6. -/
theorem codeByte_code_fifoTrigger (v : Byte) : codeByte (fifoTrigger v).code = v >>> 6 := by
  rw [fifoTrigger, TriggerLevel.code_ofCode, codeByte]
  apply BitVec.eq_of_toNat_eq
  have hv := v.isLt
  simp only [BitVec.toNat_setWidth, BitVec.extractLsb'_toNat, BitVec.toNat_ushiftRight, Nat.shiftRight_eq_div_pow]
  omega

theorem exec_fifoTriggerLevel (rd rs : Var) : exec (.fifoTriggerLevel rd rs) = pureOp rd rs (· >>> 6) :=
  congrArg (pureOp rd rs) (funext codeByte_code_fifoTrigger)

end Sys2Proof.Machine

namespace Sys2Proof.Claims

open Sys2Proof.Machine

/-! ### Format `RR` -/

theorem toWord_fieldsRR (op : BitVec 8) (rd rs : Var) :
    (fieldsRR op rd rs).toWord = word op (varBits rd) (varBits rs) 0 0 := by
  rw [← varField_eq_varBits, ← varField_eq_varBits, ← toWord_eq_word]; rfl

theorem onOperand_of_pureOp {i : Instr} {rd rs : Var} {f : Byte → Byte} (hexec : exec i = pureOp rd rs f) :
    OnOperand i rs fun s v t => Computes s t rd (f v) :=
  onOperand_of_withOperand (congrFun hexec) fun s v => ⟨s.complete rd (f v), rfl, computes_complete s rd (f v)⟩

theorem pureRR_of_pureOp {op : BitVec 8} {i : Var → Var → Instr} {f : Byte → Byte}
    (hfields : ∀ rd rs, encodeFields (i rd rs) = fieldsRR op rd rs) (hexec : ∀ rd rs, exec (i rd rs) = pureOp rd rs f) :
    PureRR op i f := by
  refine fun rd rs => ⟨?_, onOperand_of_pureOp (hexec rd rs)⟩
  rw [encode, hfields, toWord_fieldsRR]

/-! ### The encoders -/

theorem constRI_fifoAndReset (level : TriggerLevel) :
    ConstRI 0x20 (.fifoAndReset · level) (level.code.setWidth 8) (fifoByte level 0b111) :=
  constRI_of_constOp (fun _ => rfl) fun _ => rfl

theorem constRI_fifoWithoutReset (level : TriggerLevel) :
    ConstRI 0x21 (.fifoWithoutReset · level) (level.code.setWidth 8) (fifoByte level 0b001) :=
  constRI_of_constOp (fun _ => rfl) fun _ => rfl

end Sys2Proof.Claims

namespace Sys2Proof

open Sys2Proof.Machine Sys2Proof.Claims

/-- Settles O30: each encoder is the constant operation of its opcode, and the eight bytes are those of `fifoByte`. -/
theorem fifoEncodersBuildTheByte : Obligations.FifoEncodersBuildTheByte :=
  ⟨constRI_fifoAndReset .t1, constRI_fifoAndReset .t4, constRI_fifoAndReset .t8, constRI_fifoAndReset .t14,
    constRI_fifoWithoutReset .t1, constRI_fifoWithoutReset .t4, constRI_fifoWithoutReset .t8, constRI_fifoWithoutReset .t14⟩

/-- Settles O31: the operation is pure in format `RR`, and the code it computes is the byte shifted down by 6. -/
theorem fifoTriggerLevelDecodes : Obligations.FifoTriggerLevelDecodes :=
  pureRR_of_pureOp (fun _ _ => rfl) exec_fifoTriggerLevel

end Sys2Proof
end

section
/-! SUPPORT. Interrupt enable (42_interrupt_enable.md): what a bit set, clear and test (R88) compute as a mask of the byte, and what an operation of format `RR` with one of these meanings therefore does. -/

namespace Sys2Proof.Machine

open Sys2Proof.Claims

section Masks

variable {b : Nat} {mask : Byte}

theorem setBit_eq_or (hmask : 1#8 <<< b = mask) : setBit b = (· ||| mask) := by
  subst hmask; rfl

theorem clearBit_eq_and (hmask : ~~~(1#8 <<< b) = mask) : clearBit b = (· &&& mask) := by
  subst hmask; rfl

end Masks

theorem bitByte_eq_bitOf (b : Nat) : bitByte b = bitOf b := rfl

end Sys2Proof.Machine

namespace Sys2Proof.Claims

open Sys2Proof.Machine

section BitOperations

variable {op : BitVec 8} {i : Var → Var → Instr} {mask : Byte} (b : Nat)

theorem pureRR_of_setBit (hfields : ∀ rd rs, encodeFields (i rd rs) = fieldsRR op rd rs)
    (hexec : ∀ rd rs, exec (i rd rs) = pureOp rd rs (setBit b)) (hmask : 1#8 <<< b = mask) :
    PureRR op i (· ||| mask) :=
  setBit_eq_or hmask ▸ pureRR_of_pureOp hfields hexec

theorem pureRR_of_clearBit (hfields : ∀ rd rs, encodeFields (i rd rs) = fieldsRR op rd rs)
    (hexec : ∀ rd rs, exec (i rd rs) = pureOp rd rs (clearBit b)) (hmask : ~~~(1#8 <<< b) = mask) :
    PureRR op i (· &&& mask) :=
  clearBit_eq_and hmask ▸ pureRR_of_pureOp hfields hexec

theorem pureRR_of_bitByte (hfields : ∀ rd rs, encodeFields (i rd rs) = fieldsRR op rd rs)
    (hexec : ∀ rd rs, exec (i rd rs) = pureOp rd rs (bitByte b)) : PureRR op i (bitOf b) :=
  bitByte_eq_bitOf b ▸ pureRR_of_pureOp hfields hexec

end BitOperations

end Sys2Proof.Claims

namespace Sys2Proof

open Sys2Proof.Machine Sys2Proof.Claims

/-- Settles O33: each enable is the bit set of its cause's bit, whose mask is `1 << b`. -/
theorem ierEnableSetsItsBit : Obligations.IerEnableSetsItsBit := by
  refine ⟨?rda, ?thre, ?rls, ?ms⟩
  case rda => exact pureRR_of_setBit ierBitRda (fun _ _ => rfl) (fun _ _ => rfl) (by decide)
  case thre => exact pureRR_of_setBit ierBitThre (fun _ _ => rfl) (fun _ _ => rfl) (by decide)
  case rls => exact pureRR_of_setBit ierBitRls (fun _ _ => rfl) (fun _ _ => rfl) (by decide)
  case ms => exact pureRR_of_setBit ierBitMs (fun _ _ => rfl) (fun _ _ => rfl) (by decide)

/-- Settles O34: each disable is the bit clear of its cause's bit, whose mask is `~(1 << b)`. -/
theorem ierDisableClearsItsBit : Obligations.IerDisableClearsItsBit := by
  refine ⟨?rda, ?thre, ?rls, ?ms⟩
  case rda => exact pureRR_of_clearBit ierBitRda (fun _ _ => rfl) (fun _ _ => rfl) (by decide)
  case thre => exact pureRR_of_clearBit ierBitThre (fun _ _ => rfl) (fun _ _ => rfl) (by decide)
  case rls => exact pureRR_of_clearBit ierBitRls (fun _ _ => rfl) (fun _ _ => rfl) (by decide)
  case ms => exact pureRR_of_clearBit ierBitMs (fun _ _ => rfl) (fun _ _ => rfl) (by decide)

/-- Settles O35: each test is the bit test of its cause's bit. -/
theorem ierTestsItsBit : Obligations.IerTestsItsBit := by
  refine ⟨?rda, ?thre, ?rls, ?ms⟩
  case rda => exact pureRR_of_bitByte ierBitRda (fun _ _ => rfl) fun _ _ => rfl
  case thre => exact pureRR_of_bitByte ierBitThre (fun _ _ => rfl) fun _ _ => rfl
  case rls => exact pureRR_of_bitByte ierBitRls (fun _ _ => rfl) fun _ _ => rfl
  case ms => exact pureRR_of_bitByte ierBitMs (fun _ _ => rfl) fun _ _ => rfl

end Sys2Proof
end

section
/-! SUPPORT. Interrupt identification (43_interrupt_identification.md): the cause table (R49) over its 16 patterns, the two effects of `iir_pending_interrupts` (R101), and both top bits of a byte as a bound on it (R102). -/

namespace Sys2Proof.Machine

open Sys2Proof.Claims

/-! ### The cause table -/

/-- R48: the low four bits, zero-extended, are the byte masked by `0x0F`. -/
theorem setWidth_causeField (v : Byte) : (causeField v).setWidth 8 = v &&& 0x0F := by
  have hmask : v.toNat &&& (0x0F : Byte).toNat = v.toNat % 2 ^ 4 := Nat.and_two_pow_sub_one_eq_mod v.toNat 4
  apply BitVec.eq_of_toNat_eq
  simp only [causeField, BitVec.toNat_setWidth, BitVec.extractLsb'_toNat, BitVec.toNat_and, hmask, Nat.shiftRight_zero]
  omega

/-- The table has the six patterns and no other. -/
theorem isSome_decodeCause_iff (c : BitVec 4) :
    (decodeCause c).isSome = true ↔
      c.setWidth 8 ∈ [0b0001#8, 0b0000#8, 0b0010#8, 0b0100#8, 0b1100#8, 0b0110#8] := by
  revert c
  decide

/-- Each pattern of the table is the stored result of what it decodes to. -/
theorem pendingByte_of_mem_decodeCause : ∀ c : BitVec 4, ∀ p ∈ decodeCause c, pendingByte p = c.setWidth 8 := by decide

/-! ### `iir_pending_interrupts` -/

/-- What `iir_pending_interrupts` does with its operand: the masked byte on a pattern of the table, the fault outside it. -/
theorem pendingInterrupts_onOperand (rd rs : Var) :
    OnOperand (.iirPendingInterrupts rd rs) rs fun s v t =>
      ((decodeCause (causeField v)).isSome = true → Computes s t rd (v &&& 0x0F)) ∧
      (¬ (decodeCause (causeField v)).isSome = true → Raises s t (.iirInvalidCause v)) := by
  refine onOperand_of_withOperand (fun _ => rfl) fun s v => ?_
  cases hc : decodeCause (causeField v) with
  | some p =>
    have hp : pendingByte p = v &&& 0x0F := (pendingByte_of_mem_decodeCause _ p hc).trans (setWidth_causeField v)
    exact ⟨_, rfl, fun _ => hp ▸ computes_complete s rd (pendingByte p), nofun⟩
  | none => exact ⟨_, rfl, nofun, fun _ => raises_raise s _⟩

/-! ### FIFOs-enabled -/

/-- Bits 7 and 6 are both set exactly from `0xC0` up. -/
theorem flagFifosEnabled_eq_decide (v : Byte) : flagFifosEnabled v = decide (0xC0 ≤ v.toNat) := by
  have hv := v.isLt
  rw [flagFifosEnabled, testBit, testBit, BitVec.getLsbD, BitVec.getLsbD, Nat.testBit_eq_decide_div_mod_eq,
    Nat.testBit_eq_decide_div_mod_eq, ← Bool.decide_and, decide_eq_decide]
  omega

theorem boolByte_flagFifosEnabled (v : Byte) :
    boolByte (flagFifosEnabled v) = if 0xC0 ≤ v.toNat then 0x01 else 0x00 := by
  simp [boolByte, flagFifosEnabled_eq_decide]

theorem exec_iirFifosEnabled (rd rs : Var) :
    exec (.iirFifosEnabled rd rs) = pureOp rd rs fun v => if 0xC0 ≤ v.toNat then 0x01 else 0x00 :=
  congrArg (pureOp rd rs) (funext boolByte_flagFifosEnabled)

end Sys2Proof.Machine

namespace Sys2Proof

open Sys2Proof.Machine Sys2Proof.Claims

/-- Settles O37: the six masked patterns are those of the cause table, which decides between result and fault. -/
theorem pendingInterruptsByTheTable : Obligations.PendingInterruptsByTheTable := by
  refine fun rd rs => ⟨toWord_fieldsRR 0x28 rd rs, ?_⟩
  simpa only [isSome_decodeCause_iff, setWidth_causeField] using pendingInterrupts_onOperand rd rs

/-- Settles O38: the operation is pure in format `RR`, and both top bits are set exactly from `0xC0` up. -/
theorem fifosEnabledTestsBothBits : Obligations.FifosEnabledTestsBothBits :=
  pureRR_of_pureOp (fun _ _ => rfl) exec_iirFifosEnabled

end Sys2Proof
end

section
/-! SUPPORT. Line control (44_line_control.md): a 2-bit field in place as a mask of the byte (R52 to R54), what each setter and decoder computes with it (R112 to R117), and the word of format `RRI` and what a pure operation of it therefore does (R62, R69). -/

namespace Sys2Proof

/-- R53: every 2-bit code is the code of the length it decodes to. -/
@[simp] theorem CharLen.code_ofCode (c : BitVec 2) : (CharLen.ofCode c).code = c := by
  revert c
  decide

end Sys2Proof

namespace Sys2Proof.Machine

/-- The 2-bit field at bit `k`, left in its place, is the byte masked by `0b11 << k`. -/
theorem codeByte_extractLsb'_shiftLeft (v : Byte) (k : Nat) :
    codeByte (v.extractLsb' k 2) <<< k = v &&& 3#8 <<< k := by
  ext i hi
  by_cases hk : i < k
  · simp [codeByte, hk]
  · have hadd : k + (i - k) = i := by omega
    have hmask : (3#8)[i - k] = decide (i - k < 2) := Nat.testBit_two_pow_sub_one 2 (i - k)
    simp [codeByte, hk, hi, hadd, hmask, Bool.and_comm]

/-! ### Setters -/

theorem lcrWithParity_noParity (v : Byte) : lcrWithParity v .noParity = v &&& 0xE7 := BitVec.or_zero

theorem lcrWithCharLen_five (v : Byte) : lcrWithCharLen v .five = v &&& 0xFC := BitVec.or_zero

/-! ### Decoders -/

/-- R113 over the four patterns of the field, each in its place in the byte. -/
theorem codeByte_code_ofField (f : BitVec 2) :
    codeByte (Parity.ofField f).code =
      if codeByte f <<< 3 = 0x08 then 0x01 else if codeByte f <<< 3 = 0x18 then 0x03 else 0x00 := by
  revert f
  decide

theorem codeByte_code_lcrParityOf (v : Byte) :
    codeByte (lcrParityOf v).code = if v &&& 0x18 = 0x08 then 0x01 else if v &&& 0x18 = 0x18 then 0x03 else 0x00 := by
  have hfield : codeByte (v.extractLsb' 3 2) <<< 3 = v &&& 0x18 := codeByte_extractLsb'_shiftLeft v 3
  rw [lcrParityOf, codeByte_code_ofField, hfield]

theorem boolByte_lcrOneStopBit (v : Byte) : boolByte (lcrOneStopBit v) = if v.getLsbD 2 then 0x00 else 0x01 := by
  rw [lcrOneStopBit, testBit, lcrBitStop]
  cases v.getLsbD 2 <;> rfl

theorem codeByte_code_lcrCharLenOf (v : Byte) : codeByte (lcrCharLenOf v).code = v &&& 0x03 := by
  rw [lcrCharLenOf, CharLen.code_ofCode]
  simpa using codeByte_extractLsb'_shiftLeft v 0

end Sys2Proof.Machine

namespace Sys2Proof.Claims

open Sys2Proof.Machine

/-! ### Format `RRI` -/

theorem toWord_fieldsRRI (op : BitVec 8) (rd rs : Var) (v : Byte) :
    (fieldsRRI op rd rs v).toWord = word op (varBits rd) (varBits rs) 0 v := by
  rw [← varField_eq_varBits, ← varField_eq_varBits, ← toWord_eq_word]; rfl

theorem pureRRI_of_pureOp {op : BitVec 8} {i : Var → Var → Instr} {code : Byte} {f : Byte → Byte}
    (hfields : ∀ rd rs, encodeFields (i rd rs) = fieldsRRI op rd rs code)
    (hexec : ∀ rd rs, exec (i rd rs) = pureOp rd rs f) : PureRRI op i code f := by
  refine fun rd rs => ⟨?_, onOperand_of_pureOp (hexec rd rs)⟩
  rw [encode, hfields, toWord_fieldsRRI]

/-! ### The setters -/

theorem pureRRI_lcrSetParity (p : Parity) :
    PureRRI 0x47 (.lcrSetParity · · p) (p.code.setWidth 8) (lcrWithParity · p) :=
  pureRRI_of_pureOp (fun _ _ => rfl) fun _ _ => rfl

theorem pureRRI_lcrSetOneStopBit (one : Bool) :
    PureRRI 0x49 (.lcrSetOneStopBit · · one) (stopBitImm one) (lcrWithOneStopBit · one) :=
  pureRRI_of_pureOp (fun _ _ => rfl) fun _ _ => rfl

theorem pureRRI_lcrSetCharLen (c : CharLen) :
    PureRRI 0x4B (.lcrSetCharLen · · c) (c.code.setWidth 8) (lcrWithCharLen · c) :=
  pureRRI_of_pureOp (fun _ _ => rfl) fun _ _ => rfl

end Sys2Proof.Claims

namespace Sys2Proof

open Sys2Proof.Machine Sys2Proof.Claims

/-- Settles O39: the constant operation of opcode `0x40`, in format `RD`. -/
theorem lcrDefaultIsEightNoneOne : Obligations.LcrDefaultIsEightNoneOne :=
  fun rd => ⟨toWord_fieldsRD 0x40 rd, fun s => ⟨s.complete rd lcrDefaultByte, rfl, computes_complete s rd lcrDefaultByte⟩⟩

/-- Settles O40: each pair is the bit set and the bit clear of its field's bit. -/
theorem lcrEnablesAndDisables : Obligations.LcrEnablesAndDisables := by
  refine ⟨?setDlab, ?clearDlab, ?setBreak, ?clearBreak, ?setStick, ?clearStick⟩
  case setDlab => exact pureRR_of_setBit lcrBitDlab (fun _ _ => rfl) (fun _ _ => rfl) (by decide)
  case clearDlab => exact pureRR_of_clearBit lcrBitDlab (fun _ _ => rfl) (fun _ _ => rfl) (by decide)
  case setBreak => exact pureRR_of_setBit lcrBitBreak (fun _ _ => rfl) (fun _ _ => rfl) (by decide)
  case clearBreak => exact pureRR_of_clearBit lcrBitBreak (fun _ _ => rfl) (fun _ _ => rfl) (by decide)
  case setStick => exact pureRR_of_setBit lcrBitStick (fun _ _ => rfl) (fun _ _ => rfl) (by decide)
  case clearStick => exact pureRR_of_clearBit lcrBitStick (fun _ _ => rfl) (fun _ _ => rfl) (by decide)

/-- Settles O41: each setter is pure in format `RRI`; a field code of 0 leaves the mask alone. -/
theorem lcrSettersReplaceTheirField : Obligations.LcrSettersReplaceTheirField := by
  refine ⟨?none, pureRRI_lcrSetParity .odd, pureRRI_lcrSetParity .even, pureRRI_lcrSetOneStopBit true,
    pureRRI_lcrSetOneStopBit false, ?five, pureRRI_lcrSetCharLen .six, pureRRI_lcrSetCharLen .seven,
    pureRRI_lcrSetCharLen .eight⟩
  case none => exact funext lcrWithParity_noParity ▸ pureRRI_lcrSetParity .noParity
  case five => exact funext lcrWithCharLen_five ▸ pureRRI_lcrSetCharLen .five

/-- Settles O42: each decoder is pure in format `RR`, and what it computes is read off the masked byte. -/
theorem lcrDecodersReadTheirField : Obligations.LcrDecodersReadTheirField := by
  refine ⟨?parity, ?stopBit, ?length⟩
  case parity => exact funext codeByte_code_lcrParityOf ▸ pureRR_of_pureOp (fun _ _ => rfl) fun _ _ => rfl
  case stopBit => exact funext boolByte_lcrOneStopBit ▸ pureRR_of_pureOp (fun _ _ => rfl) fun _ _ => rfl
  case length => exact funext codeByte_code_lcrCharLenOf ▸ pureRR_of_pureOp (fun _ _ => rfl) fun _ _ => rfl

end Sys2Proof
end

section
namespace Sys2Proof

open Sys2Proof.Claims

/-- Settles O44: each test is the bit test of its flag's bit (R56), in format `RR`. -/
theorem lsrTestsItsFlag : Obligations.LsrTestsItsFlag := by
  refine ⟨?dataReady, ?overrunError, ?parityError, ?framingError, ?breakInterrupt, ?thrEmpty, ?transmitterEmpty,
    ?rxFifoError⟩
  all_goals exact pureRR_of_bitByte _ (fun _ _ => rfl) fun _ _ => rfl

end Sys2Proof
end

section
/-! SUPPORT. Exceptions (60_exceptions.md): every operation with an operand is a continuation on that operand (R140), so nothing of it runs before the read. -/

namespace Sys2Proof.Machine

/-- R140: an operation with an operand variable reads it first; all else it does stands in the continuation. -/
theorem exec_eq_withOperand {i : Instr} {rs : Var} (hi : operandVar i = some rs) (s : State) :
    ∃ k, exec i s = withOperand rs s k := by
  cases i <;> cases hi
  all_goals exact ⟨_, rfl⟩

theorem exec_unwritten {i : Instr} {rs : Var} {s : State} (hi : operandVar i = some rs) (hv : s.var rs = .unwritten) :
    exec i s = .next (s.raise (.unwrittenVariable rs)) := by
  obtain ⟨k, hk⟩ := exec_eq_withOperand hi s
  exact hk.trans (withOperand_unwritten hv k)

end Sys2Proof.Machine

namespace Sys2Proof

open Sys2Proof.Machine Sys2Proof.Claims

/-- Settles O45: the operand's read comes first, and on an unwritten variable it is the raised fault. -/
theorem unwrittenOperandRaises : Obligations.UnwrittenOperandRaises :=
  fun _ rs s hi hv => ⟨s.raise (.unwrittenVariable rs), exec_unwritten hi hv, raises_raise s _⟩

end Sys2Proof
end

section
/-! SUPPORT. The round trips of the encoding (R61 to R66): for each format (R62), what its decoder gives on the fields its encoder writes, and that the fields of an accepted word are those its encoder writes back. -/

namespace Sys2Proof

open Sys2Proof.Claims

/-! ### The immediates -/

@[simp] theorem varField_toFin (b : BitVec 4) : varField b.toFin = b := rfl

@[simp] theorem TriggerLevel.ofImm_code (level : TriggerLevel) : TriggerLevel.ofImm (level.code.setWidth 8) = some level := by
  cases level <;> decide

@[simp] theorem CharLen.ofImm_code (c : CharLen) : CharLen.ofImm (c.code.setWidth 8) = some c := by
  cases c <;> decide

@[simp] theorem Parity.ofImm_code (p : Parity) : Parity.ofImm (p.code.setWidth 8) = some p := by
  cases p <;> decide

@[simp] theorem stopBitOfImm_stopBitImm (one : Bool) : stopBitOfImm (stopBitImm one) = some one := by
  cases one <;> decide

theorem TriggerLevel.code_of_ofImm : ∀ (v : Byte), ∀ level ∈ TriggerLevel.ofImm v, level.code.setWidth 8 = v := by decide

theorem CharLen.code_of_ofImm : ∀ (v : Byte), ∀ c ∈ CharLen.ofImm v, c.code.setWidth 8 = v := by decide

theorem Parity.code_of_ofImm : ∀ (v : Byte), ∀ p ∈ Parity.ofImm v, p.code.setWidth 8 = v := by decide

theorem stopBitImm_of_stopBitOfImm : ∀ (v : Byte), ∀ one ∈ stopBitOfImm v, stopBitImm one = v := by decide

/-! ### Decoding the fields of an encoder -/

section FormOfFields

variable (op : BitVec 8) (rd rs : Var)

theorem formRD_fieldsRD (k : Var → Instr) : formRD (fieldsRD op rd) k = .instr (k rd) := rfl

theorem formRS_fieldsRS (k : Var → Instr) : formRS (fieldsRS op rs) k = .instr (k rs) := rfl

theorem formRR_fieldsRR (k : Var → Var → Instr) : formRR (fieldsRR op rd rs) k = .instr (k rd rs) := rfl

theorem formI16_fieldsI16 (d : BitVec 16) (k : BitVec 16 → Instr) : formI16 (fieldsI16 op d) k = .instr (k d) := rfl

theorem formRRI_fieldsRRI (v : Byte) (k : Var → Var → Byte → Option Instr) :
    formRRI (fieldsRRI op rd rs v) k = whenInRange (k rd rs v) := by
  have hhi : (fieldsRRI op rd rs v).immHi = 0#8 := Fields.immHi_append _ 0#8 v rfl
  have hlo : (fieldsRRI op rd rs v).immLo = v := Fields.immLo_append _ 0#8 v rfl
  rw [formRRI, hhi, hlo]
  rfl

theorem formRI_fieldsRI (v : Byte) (k : Var → Byte → Option Instr) :
    formRI (fieldsRI op rd v) k = whenInRange (k rd v) := by
  have hhi : (fieldsRI op rd v).immHi = 0#8 := Fields.immHi_append _ 0#8 v rfl
  have hlo : (fieldsRI op rd v).immLo = v := Fields.immLo_append _ 0#8 v rfl
  rw [formRI, hhi, hlo]
  rfl

theorem formX_fieldsX (base len : Byte) (k : Var → Byte → Byte → Instr) :
    formX (fieldsX op rd base len) k = whenWindowFits base len (k rd base len) := by
  have hhi : (fieldsX op rd base len).immHi = base := Fields.immHi_append _ base len rfl
  have hlo : (fieldsX op rd base len).immLo = len := Fields.immLo_append _ base len rfl
  rw [formX, hhi, hlo]
  rfl

end FormOfFields

theorem decode_encode_eq (i : Instr) : decode (encode i) = decodeFields (encodeFields i) :=
  congrArg decodeFields (Fields.ofWord_toWord _)

/-- Each opcode of `encodeFields` is decoded by the format that wrote the fields. -/
theorem decodeFields_encodeFields (i : Instr) (hi : i.wellFormed = true) : decodeFields (encodeFields i) = .instr i := by
  cases i with
  | rbrRead rd | ierRead rd | iirRead rd | lcrRead rd | mcrRead rd | lsrRead rd | msrRead rd | lcrDefault rd =>
    exact formRD_fieldsRD _ rd _
  | thrWrite rs | ierWrite rs | fcrWrite rs | lcrWrite rs | mcrWrite rs => exact formRS_fieldsRS _ rs _
  | fifoTriggerLevel rd rs | iirPendingInterrupts rd rs | iirFifosEnabled rd rs | ierEnableRda rd rs | ierDisableRda rd rs
  | ierIsRdaEnabled rd rs | ierEnableThre rd rs | ierDisableThre rd rs | ierIsThreEnabled rd rs | ierEnableRls rd rs
  | ierDisableRls rd rs | ierIsRlsEnabled rd rs | ierEnableMs rd rs | ierDisableMs rd rs | ierIsMsEnabled rd rs
  | lcrEnableDlrAccess rd rs | lcrDisableDlrAccess rd rs | lcrEnableBreakControl rd rs | lcrDisableBreakControl rd rs
  | lcrEnableStickParity rd rs | lcrDisableStickParity rd rs | lcrParity rd rs | lcrIsOneStopBit rd rs | lcrCharLen rd rs
  | lsrDataReady rd rs | lsrOverrunError rd rs | lsrParityError rd rs | lsrFramingError rd rs | lsrBreakInterrupt rd rs
  | lsrThrEmpty rd rs | lsrTransmitterEmpty rd rs | lsrRxFifoError rd rs => exact formRR_fieldsRR _ rd rs _
  | lcrSetParity rd rs p =>
    exact (formRRI_fieldsRRI 0x47 rd rs (p.code.setWidth 8) fun rd rs v => (Parity.ofImm v).map (.lcrSetParity rd rs)).trans
      (by simp [whenInRange])
  | lcrSetOneStopBit rd rs one =>
    exact (formRRI_fieldsRRI 0x49 rd rs (stopBitImm one) fun rd rs v =>
      (stopBitOfImm v).map (.lcrSetOneStopBit rd rs)).trans (by simp [whenInRange])
  | lcrSetCharLen rd rs c =>
    exact (formRRI_fieldsRRI 0x4B rd rs (c.code.setWidth 8) fun rd rs v => (CharLen.ofImm v).map (.lcrSetCharLen rd rs)).trans
      (by simp [whenInRange])
  | li rd v => exact formRI_fieldsRI 0x01 rd v fun rd v => some (.li rd v)
  | fifoAndReset rd level =>
    exact (formRI_fieldsRI 0x20 rd (level.code.setWidth 8) fun rd v => (TriggerLevel.ofImm v).map (.fifoAndReset rd)).trans
      (by simp [whenInRange])
  | fifoWithoutReset rd level =>
    exact (formRI_fieldsRI 0x21 rd (level.code.setWidth 8) fun rd v =>
      (TriggerLevel.ofImm v).map (.fifoWithoutReset rd)).trans (by simp [whenInRange])
  | writeDivisor d => exact formI16_fieldsI16 _ d _
  | read rd base len | write rd base len => exact (formX_fieldsX _ rd base len _).trans (if_pos hi)

/-! ### Encoding the fields of an accepted word -/

/-- The operation is well formed and its encoder writes these fields. -/
def Writes (f : Fields) (i : Instr) : Prop := encodeFields i = f ∧ i.wellFormed = true

section Writes

variable {f : Fields} {i : Instr}

theorem whenUnusedZero_eq_instr {b : Bool} {k : Decoded} (h : whenUnusedZero b k = .instr i) : b = true ∧ k = .instr i := by
  cases b with
  | true => exact ⟨rfl, h⟩
  | false => cases h

theorem whenInRange_eq_instr {o : Option Instr} (h : whenInRange o = .instr i) : o = some i := by
  cases o with
  | some j => exact congrArg some (Decoded.instr.inj h)
  | none => cases h

theorem whenWindowFits_eq_instr {base len : Byte} {j : Instr} (h : whenWindowFits base len j = .instr i) :
    windowInBuffer base len = true ∧ j = i := by
  unfold whenWindowFits at h
  split at h
  · next hw => exact ⟨hw, Decoded.instr.inj h⟩
  · cases h

/-- A zero high byte makes the immediate the low byte, zero-extended. -/
theorem Fields.imm_eq_byteImm (hhi : f.immHi = 0#8) : f.imm = byteImm f.immLo := by
  rw [Fields.imm_eq_append, hhi]; rfl

theorem writes_of_formRD {k : Var → Instr} (h : formRD f k = .instr i) (hk : ∀ rd, Writes (fieldsRD f.op rd) (k rd)) :
    Writes f i := by
  obtain ⟨hzero, hi⟩ := whenUnusedZero_eq_instr h
  simp only [Bool.and_eq_true, beq_iff_eq] at hzero
  have hf : fieldsRD f.op f.rd.toFin = f := by simp [fieldsRD, ← hzero.1, ← hzero.2]
  exact Decoded.instr.inj hi ▸ hf ▸ hk f.rd.toFin

theorem writes_of_formRS {k : Var → Instr} (h : formRS f k = .instr i) (hk : ∀ rs, Writes (fieldsRS f.op rs) (k rs)) :
    Writes f i := by
  obtain ⟨hzero, hi⟩ := whenUnusedZero_eq_instr h
  simp only [Bool.and_eq_true, beq_iff_eq] at hzero
  have hf : fieldsRS f.op f.rs.toFin = f := by simp [fieldsRS, ← hzero.1, ← hzero.2]
  exact Decoded.instr.inj hi ▸ hf ▸ hk f.rs.toFin

theorem writes_of_formRR {k : Var → Var → Instr} (h : formRR f k = .instr i)
    (hk : ∀ rd rs, Writes (fieldsRR f.op rd rs) (k rd rs)) : Writes f i := by
  obtain ⟨hzero, hi⟩ := whenUnusedZero_eq_instr h
  have himm : f.imm = 0#16 := beq_iff_eq.mp hzero
  have hf : fieldsRR f.op f.rd.toFin f.rs.toFin = f := by simp [fieldsRR, ← himm]
  exact Decoded.instr.inj hi ▸ hf ▸ hk f.rd.toFin f.rs.toFin

theorem writes_of_formRRI {k : Var → Var → Byte → Option Instr} (h : formRRI f k = .instr i)
    (hk : ∀ rd rs v, ∀ j ∈ k rd rs v, Writes (fieldsRRI f.op rd rs v) j) : Writes f i := by
  obtain ⟨hzero, hi⟩ := whenUnusedZero_eq_instr h
  have himm : f.imm = byteImm f.immLo := Fields.imm_eq_byteImm (beq_iff_eq.mp hzero)
  have hf : fieldsRRI f.op f.rd.toFin f.rs.toFin f.immLo = f := by simp [fieldsRRI, ← himm]
  exact hf ▸ hk _ _ _ i (whenInRange_eq_instr hi)

theorem writes_of_formRI {k : Var → Byte → Option Instr} (h : formRI f k = .instr i)
    (hk : ∀ rd v, ∀ j ∈ k rd v, Writes (fieldsRI f.op rd v) j) : Writes f i := by
  obtain ⟨hzero, hi⟩ := whenUnusedZero_eq_instr h
  simp only [Bool.and_eq_true, beq_iff_eq] at hzero
  have himm : f.imm = byteImm f.immLo := Fields.imm_eq_byteImm hzero.2
  have hf : fieldsRI f.op f.rd.toFin f.immLo = f := by simp [fieldsRI, ← himm, ← hzero.1]
  exact hf ▸ hk _ _ i (whenInRange_eq_instr hi)

theorem writes_of_formI16 {k : BitVec 16 → Instr} (h : formI16 f k = .instr i) (hk : ∀ d, Writes (fieldsI16 f.op d) (k d)) :
    Writes f i := by
  obtain ⟨hzero, hi⟩ := whenUnusedZero_eq_instr h
  simp only [Bool.and_eq_true, beq_iff_eq] at hzero
  have hf : fieldsI16 f.op f.imm = f := by
    change Fields.mk f.op 0#4 0#4 f.imm = Fields.mk f.op f.rd f.rs f.imm
    rw [hzero.1, hzero.2]
  exact Decoded.instr.inj hi ▸ hf ▸ hk f.imm

theorem writes_of_formX {k : Var → Byte → Byte → Instr} (h : formX f k = .instr i)
    (hk : ∀ rd base len, windowInBuffer base len = true → Writes (fieldsX f.op rd base len) (k rd base len)) :
    Writes f i := by
  obtain ⟨hzero, hi⟩ := whenUnusedZero_eq_instr h
  obtain ⟨hwindow, rfl⟩ := whenWindowFits_eq_instr hi
  have hrs : f.rs = 0#4 := beq_iff_eq.mp hzero
  have hf : fieldsX f.op f.rd.toFin f.immHi f.immLo = f := by simp [fieldsX, ← Fields.imm_eq_append, ← hrs]
  have hwrites := hk f.rd.toFin f.immHi f.immLo hwindow
  rwa [hf] at hwrites

/-! Every opcode of a format is decoded by that format, to the operation that is encoded with that opcode. -/

theorem decodeFields_RD (h : f.op.toNat ∈ opcodesRD) :
    ∃ k, decodeFields f = formRD f k ∧ ∀ rd, Writes (fieldsRD f.op rd) (k rd) := by
  have hop := Fields.op_mem_of_toNat_mem h
  obtain ⟨op, rd, rs, imm⟩ := f
  fin_cases hop <;> exact ⟨_, rfl, fun _ => ⟨rfl, rfl⟩⟩

theorem decodeFields_RS (h : f.op.toNat ∈ opcodesRS) :
    ∃ k, decodeFields f = formRS f k ∧ ∀ rs, Writes (fieldsRS f.op rs) (k rs) := by
  have hop := Fields.op_mem_of_toNat_mem h
  obtain ⟨op, rd, rs, imm⟩ := f
  fin_cases hop <;> exact ⟨_, rfl, fun _ => ⟨rfl, rfl⟩⟩

theorem decodeFields_RR (h : f.op.toNat ∈ opcodesRR) :
    ∃ k, decodeFields f = formRR f k ∧ ∀ rd rs, Writes (fieldsRR f.op rd rs) (k rd rs) := by
  have hop := Fields.op_mem_of_toNat_mem h
  obtain ⟨op, rd, rs, imm⟩ := f
  fin_cases hop <;> exact ⟨_, rfl, fun _ _ => ⟨rfl, rfl⟩⟩

theorem decodeFields_I16 (h : f.op.toNat ∈ opcodesI16) :
    ∃ k, decodeFields f = formI16 f k ∧ ∀ d, Writes (fieldsI16 f.op d) (k d) := by
  have hop := Fields.op_mem_of_toNat_mem h
  obtain ⟨op, rd, rs, imm⟩ := f
  fin_cases hop
  exact ⟨_, rfl, fun _ => ⟨rfl, rfl⟩⟩

theorem decodeFields_X (h : f.op.toNat ∈ opcodesX) :
    ∃ k, decodeFields f = formX f k ∧
      ∀ rd base len, windowInBuffer base len = true → Writes (fieldsX f.op rd base len) (k rd base len) := by
  have hop := Fields.op_mem_of_toNat_mem h
  obtain ⟨op, rd, rs, imm⟩ := f
  fin_cases hop <;> exact ⟨_, rfl, fun _ _ _ hwindow => ⟨rfl, hwindow⟩⟩

theorem decodeFields_RRI (h : f.op.toNat ∈ opcodesRRI) :
    ∃ k, decodeFields f = formRRI f k ∧ ∀ rd rs v, ∀ j ∈ k rd rs v, Writes (fieldsRRI f.op rd rs v) j := by
  have hop := Fields.op_mem_of_toNat_mem h
  obtain ⟨op, rd, rs, imm⟩ := f
  fin_cases hop
  · refine ⟨fun rd rs v => (Parity.ofImm v).map (.lcrSetParity rd rs), rfl, fun rd rs v j hj => ?_⟩
    obtain ⟨p, hp, rfl⟩ := Option.map_eq_some_iff.mp hj
    exact ⟨congrArg (fieldsRRI 0x47 rd rs) (Parity.code_of_ofImm v p hp), rfl⟩
  · refine ⟨fun rd rs v => (stopBitOfImm v).map (.lcrSetOneStopBit rd rs), rfl, fun rd rs v j hj => ?_⟩
    obtain ⟨one, hone, rfl⟩ := Option.map_eq_some_iff.mp hj
    exact ⟨congrArg (fieldsRRI 0x49 rd rs) (stopBitImm_of_stopBitOfImm v one hone), rfl⟩
  · refine ⟨fun rd rs v => (CharLen.ofImm v).map (.lcrSetCharLen rd rs), rfl, fun rd rs v j hj => ?_⟩
    obtain ⟨c, hc, rfl⟩ := Option.map_eq_some_iff.mp hj
    exact ⟨congrArg (fieldsRRI 0x4B rd rs) (CharLen.code_of_ofImm v c hc), rfl⟩

theorem decodeFields_RI (h : f.op.toNat ∈ opcodesRI) :
    ∃ k, decodeFields f = formRI f k ∧ ∀ rd v, ∀ j ∈ k rd v, Writes (fieldsRI f.op rd v) j := by
  have hop := Fields.op_mem_of_toNat_mem h
  obtain ⟨op, rd, rs, imm⟩ := f
  fin_cases hop
  · refine ⟨fun rd v => some (.li rd v), rfl, fun rd v j hj => ?_⟩
    obtain rfl := Option.some.inj hj
    exact ⟨rfl, rfl⟩
  · refine ⟨fun rd v => (TriggerLevel.ofImm v).map (.fifoAndReset rd), rfl, fun rd v j hj => ?_⟩
    obtain ⟨level, hlevel, rfl⟩ := Option.map_eq_some_iff.mp hj
    exact ⟨congrArg (fieldsRI 0x20 rd) (TriggerLevel.code_of_ofImm v level hlevel), rfl⟩
  · refine ⟨fun rd v => (TriggerLevel.ofImm v).map (.fifoWithoutReset rd), rfl, fun rd v j hj => ?_⟩
    obtain ⟨level, hlevel, rfl⟩ := Option.map_eq_some_iff.mp hj
    exact ⟨congrArg (fieldsRI 0x21 rd) (TriggerLevel.code_of_ofImm v level hlevel), rfl⟩

theorem opcode_known_of_decodeFields (h : decodeFields f = .instr i) : f.op.toNat ∈ knownOpcodes := by
  by_contra hunknown
  rw [decodeFields_of_unknown hunknown] at h
  cases h

theorem writes_of_decodeFields (h : decodeFields f = .instr i) : Writes f i := by
  have hop := opcode_known_of_decodeFields h
  simp only [knownOpcodes, List.mem_append] at hop
  rcases hop with (((((hRD | hRS) | hRR) | hRRI) | hRI) | hI16) | hX
  · obtain ⟨k, hk, hwrites⟩ := decodeFields_RD hRD
    exact writes_of_formRD (hk ▸ h) hwrites
  · obtain ⟨k, hk, hwrites⟩ := decodeFields_RS hRS
    exact writes_of_formRS (hk ▸ h) hwrites
  · obtain ⟨k, hk, hwrites⟩ := decodeFields_RR hRR
    exact writes_of_formRR (hk ▸ h) hwrites
  · obtain ⟨k, hk, hwrites⟩ := decodeFields_RRI hRRI
    exact writes_of_formRRI (hk ▸ h) hwrites
  · obtain ⟨k, hk, hwrites⟩ := decodeFields_RI hRI
    exact writes_of_formRI (hk ▸ h) hwrites
  · obtain ⟨k, hk, hwrites⟩ := decodeFields_I16 hI16
    exact writes_of_formI16 (hk ▸ h) hwrites
  · obtain ⟨k, hk, hwrites⟩ := decodeFields_X hX
    exact writes_of_formX (hk ▸ h) hwrites

end Writes

theorem encode_of_decode {w : OpWord} {i : Instr} (h : decode w = .instr i) : encode i = w := by
  obtain ⟨hfields, -⟩ := writes_of_decodeFields h
  rw [encode, hfields, Fields.toWord_ofWord]

theorem wellFormed_of_decode {w : OpWord} {i : Instr} (h : decode w = .instr i) : i.wellFormed = true :=
  (writes_of_decodeFields h).2

/-- Settles O1: the word has the fields of the encoder, and the format of the opcode decodes them. -/
theorem decodeOfEncodeIsIdentity : Obligations.DecodeOfEncodeIsIdentity :=
  fun i hi => (decode_encode_eq i).trans (decodeFields_encodeFields i hi)

/-- Settles O2: the encoder of the operation accepted writes the word's fields. -/
theorem encodeOfDecodeIsIdentity : Obligations.EncodeOfDecodeIsIdentity :=
  fun _ _ h => ⟨encode_of_decode h, wellFormed_of_decode h⟩

end Sys2Proof
end

section
/-! SUPPORT. The hand-over (R43, R148): it permutes the contexts and gives the turn to one that can move, so a context without a further step stays as it is. -/

namespace Sys2Proof.Machine

/-- Every choice holds the same contexts: a swap takes one out of the others and puts the first in its place. -/
theorem turnChoices_perm {c : Context} {os : List Context} {p : Context × List Context} (h : p ∈ turnChoices c os) :
    (p.1 :: p.2).Perm (c :: os) := by
  rcases mem_turnChoices.mp h with rfl | ⟨k, hk, rfl⟩
  · exact .refl _
  · calc
      List.Perm (os[k] :: os.set k c) (os[k] :: c :: os.eraseIdx k) := .cons _ (List.set_perm_cons_eraseIdx hk c)
      List.Perm _ (c :: os[k] :: os.eraseIdx k) := .swap ..
      List.Perm _ (c :: os) := .cons c (List.getElem_cons_eraseIdx_perm hk)

theorem State.handOver_contexts_perm (s : State) : s.handOver.contexts.Perm s.contexts := by
  obtain ⟨-, -, -, -, hchoice⟩ := s.handOver_spec
  exact turnChoices_perm hchoice

theorem State.mem_handOver_contexts {s : State} {c : Context} : c ∈ s.handOver.contexts ↔ c ∈ s.contexts :=
  s.handOver_contexts_perm.mem_iff

theorem exists_liveChoice {s : State} {c : Context} (hc : c ∈ s.contexts) (hlive : c.live = true) :
    ∃ p, p ∈ liveChoices s := by
  have hchoice : ∃ p ∈ turnChoices s.ctx s.others, p.1 = c := by
    rcases List.mem_cons.mp hc with rfl | hc
    · exact ⟨_, mem_turnChoices.mpr (.inl rfl), rfl⟩
    · obtain ⟨k, hk, rfl⟩ := List.getElem_of_mem hc
      exact ⟨_, mem_turnChoices.mpr (.inr ⟨k, hk, rfl⟩), rfl⟩
  obtain ⟨p, hp, rfl⟩ := hchoice
  exact ⟨p, List.mem_filter.mpr ⟨hp, hlive⟩⟩

theorem State.handOver_ctx_live {s : State} (h : s.contexts.any Context.live = true) : s.handOver.ctx.live = true := by
  obtain ⟨c, hc, hlive⟩ := List.any_eq_true.mp h
  unfold State.handOver
  split
  · next hothers =>
    obtain rfl : c = s.ctx := by simpa [State.contexts, hothers] using hc
    exact hlive
  · obtain ⟨q, hq⟩ := exists_liveChoice hc hlive
    have hindex : s.env.turnChoice % (liveChoices s).length < (liveChoices s).length :=
      Nat.mod_lt _ (List.length_pos_of_mem hq)
    rw [List.getElem?_eq_getElem hindex]
    exact (List.mem_filter.mp (List.getElem_mem hindex)).2

/-! ### What a context's step leaves alone -/

section Frame

variable {s t : State}

theorem ExecShape.others_params_program {i : Instr} (h : ExecShape i s t) :
    t.others = s.others ∧ t.params = s.params ∧ t.ctx.program = s.ctx.program := by
  cases h <;> exact ⟨rfl, rfl, rfl⟩

theorem StepShape.others_params_program (h : StepShape s t) :
    t.others = s.others ∧ t.params = s.params ∧ t.ctx.program = s.ctx.program := by
  cases h with
  | word w i t _ _ _ he => exact he.others_params_program
  | _ => exact ⟨rfl, rfl, rfl⟩

theorem StepShape.others (h : StepShape s t) : t.others = s.others := h.others_params_program.1

theorem Context.live_eq_true_iff (c : Context) : c.live = true ↔ c.stopReason = none := Option.isNone_iff_eq_none

theorem mem_contexts_of_stopped (h : step s = .next t) {c : Context} (hc : c ∈ s.contexts) (hstop : c.live = false) :
    c ∈ t.contexts := by
  have hnotlive : c.stopReason ≠ none := by
    rw [ne_eq, ← c.live_eq_true_iff, hstop]
    exact Bool.false_ne_true
  rcases step_next h with ⟨u, hgo, hu, rfl⟩ | ⟨-, rfl⟩
  · have hother : c ∈ s.others := (List.mem_cons.mp hc).resolve_left fun hctx => hnotlive (hctx ▸ hgo)
    rw [State.mem_handOver_contexts, State.contexts, (contextStep_shape hu).others]
    exact List.mem_cons_of_mem _ hother
  · exact State.mem_handOver_contexts.mpr hc

end Frame

end Sys2Proof.Machine

namespace Sys2Proof

open Sys2Proof.Machine

/-- Settles O9: the hand-over is one of the choices of turn, and picks a live one whenever one is left. -/
theorem handOverOnlyPermutesContexts : Obligations.HandOverOnlyPermutesContexts := by
  intro s
  obtain ⟨hparams, htrace, hanswers, hdraws, -⟩ := s.handOver_spec
  exact ⟨s.handOver_contexts_perm, htrace, hparams, hanswers, hdraws, s.handOver_ctx_live⟩

/-- Settles O8: only the context whose turn it is steps, only while it is live, and the hand-over keeps every context. -/
theorem stoppedContextsStayAsTheyAre : Obligations.StoppedContextsStayAsTheyAre :=
  fun _ _ _ h hc hstop => mem_contexts_of_stopped h hc hstop

end Sys2Proof
end

section
/-! SUPPORT. What a context's step can change (R20, R23, R148): the record and the mark only grow, `pc` stays or advances, one variable and one byte of the buffer may be written. -/

namespace Sys2Proof.Machine

open Sys2Proof.Claims

section Frame

variable {s t : State}

/-! ### Record and mark -/

theorem ExecShape.record_grows {i : Instr} (h : ExecShape i s t) :
    s.ctx.faults <+: t.ctx.faults ∧ t.ctx.refused = s.ctx.refused := by
  cases h with
  | unwritten | invalidCause => exact ⟨List.prefix_append _ _, rfl⟩
  | _ => exact ⟨List.prefix_rfl, rfl⟩

theorem StepShape.record_grows (h : StepShape s t) :
    s.ctx.faults <+: t.ctx.faults ∧ (s.ctx.refused = true → t.ctx.refused = true) := by
  cases h with
  | word w i t _ _ _ he => exact ⟨he.record_grows.1, he.record_grows.2.trans⟩
  | refusedWord => exact ⟨List.prefix_rfl, fun _ => rfl⟩
  | _ => exact ⟨List.prefix_rfl, id⟩

/-! ### `pc` and the variables -/

/-- `pc` is kept or one more, and no variable is written but `d`. -/
def AdvancesWriting (s t : State) (d : Option Var) : Prop :=
  (t.ctx.pc = s.ctx.pc ∨ t.ctx.pc = s.ctx.pc + 1) ∧ ∀ r, d ≠ some r → t.var r = s.var r

theorem AdvancesWriting.stays {d : Option Var} (hpc : t.ctx.pc = s.ctx.pc) (hvars : KeepsVars s t) : AdvancesWriting s t d :=
  ⟨.inl hpc, fun r _ => hvars r⟩

theorem AdvancesWriting.advances {d : Option Var} (hpc : t.ctx.pc = s.ctx.pc + 1) (hvars : KeepsVars s t) :
    AdvancesWriting s t d :=
  ⟨.inr hpc, fun r _ => hvars r⟩

theorem AdvancesWriting.writes {rd : Var} {v : Byte} (hpc : t.ctx.pc = s.ctx.pc + 1) (hset : SetsVar s t rd v) :
    AdvancesWriting s t (some rd) :=
  ⟨.inr hpc, fun r hr => hset.2 r fun h => hr (congrArg some h.symm)⟩

theorem setsVar_complete (rd : Var) (v : Byte) : SetsVar s (s.complete rd v) rd v :=
  ⟨s.var_complete_same rd v, fun _ => s.var_complete_other v⟩

theorem setsVar_endDrain (w : Drain) : SetsVar s (s.endDrain w) w.rd w.i :=
  ⟨s.var_endDrain_same w, fun _ => s.var_endDrain_other⟩

theorem ExecShape.advancesWriting {i : Instr} (h : ExecShape i s t) : AdvancesWriting s t (resultVar i) := by
  cases h with
  | completes rd v hd => exact hd ▸ .writes rfl (setsVar_complete rd v)
  | reads pos rd _ hd =>
    exact hd ▸ .writes rfl ((keepsVars_cellRead s pos).setsVar (setsVar_complete rd (s.readByte pos)))
  | writes => exact .advances rfl fun _ => rfl
  | _ => exact .stays rfl fun _ => rfl

theorem destination_of_instr {w : OpWord} {i : Instr} (hp : s.ctx.phase = .idle) (hf : s.ctx.program[s.ctx.pc]? = some w)
    (hd : decode w = .instr i) : s.destination = resultVar i := by
  simp [State.destination, State.fetch, hp, hf, hd]

theorem destination_of_poll {w : Drain} (hp : s.ctx.phase = .rdPoll w ∨ s.ctx.phase = .wrPoll w) :
    s.destination = some w.rd := by
  rcases hp with hp | hp <;> simp [State.destination, hp]

theorem StepShape.advancesWriting (h : StepShape s t) : AdvancesWriting s t s.destination := by
  cases h with
  | word w i t hp hf hd he => exact destination_of_instr hp hf hd ▸ he.advancesWriting
  | pollFull w hp => exact destination_of_poll hp ▸ .writes rfl (setsVar_endDrain w)
  | pollNotReady w hp =>
    exact destination_of_poll hp ▸ .writes rfl ((keepsVars_cellRead s .lsr).setsVar (setsVar_endDrain w))
  | div4 => exact .advances rfl fun _ => rfl
  | _ => exact .stays rfl fun _ => rfl

/-! ### The caller buffer -/

theorem ExecShape.buf_eq {i : Instr} (h : ExecShape i s t) : t.ctx.buf = s.ctx.buf := by
  cases h <;> rfl

theorem StepShape.buf_cases (h : StepShape s t) :
    t.ctx.buf = s.ctx.buf ∨
      ∃ w, s.ctx.phase = .rdData w ∧ drainIndex w < Config.bufSize ∧
        t.ctx.buf = memWrite s.ctx.buf (drainIndex w) (s.readByte .data) := by
  cases h with
  | word w i t _ _ _ he => exact .inl he.buf_eq
  | rdData w hp hb => exact .inr ⟨w, hp, hb, rfl⟩
  | _ => exact .inl rfl

theorem bufByte_setBuf (hwf : s.ctx.buf.wf = true) (a x : Nat) (b : Byte) :
    (s.setBuf a b).bufByte x = if a = x then b else s.bufByte x :=
  memRead_memWrite hwf a x b

end Frame

end Sys2Proof.Machine

namespace Sys2Proof

open Sys2Proof.Machine Sys2Proof.Claims

/-- Settles O10, from the shapes of a context's step. -/
theorem contextStepTouchesOnlyItsOwn : Obligations.ContextStepTouchesOnlyItsOwn := by
  intro s t h
  have hshape : StepShape s t := contextStep_shape h
  obtain ⟨hothers, hparams, hprogram⟩ := hshape.others_params_program
  exact ⟨hothers, hparams, hprogram, hshape.record_grows⟩

/-- Settles O11: a step ends an operation, ends a drain, or keeps `pc` and every variable. -/
theorem pcOnlyAdvancesByOne : Obligations.PcOnlyAdvancesByOne :=
  fun _ _ h => (contextStep_shape h).advancesWriting

/-- Settles O12: `RD_DATA` is the one row that writes the buffer, at the index of the drain. -/
theorem onlyTheReceiveDrainWritesTheBuffer : Obligations.OnlyTheReceiveDrainWritesTheBuffer := by
  intro s t hwf h a
  rcases (contextStep_shape h).buf_cases with hbuf | ⟨w, hp, -, hbuf⟩
  · exact .inl (congrArg (memRead · a) hbuf)
  · by_cases ha : a = drainIndex w
    · exact .inr ⟨w, hp, ha⟩
    · left
      rw [State.bufByte, hbuf, memRead_memWrite hwf, if_neg (Ne.symm ha), State.bufByte]

end Sys2Proof
end

section
/-! SUPPORT. What the accesses of a step depend on and how many there are: two machines that differ outside the context whose turn it is step alike on the same answers (R8, R148), and each operation's own step makes one access or none (R161). -/

namespace Sys2Proof.Machine

open Sys2Proof.Claims

/-! ### Two machines with the same context and the same answers -/

/-- From `s` and `s'` on, the same context and parameters with the same accesses made. -/
structure SameProgress (s s' t t' : State) : Prop where
  ctx : t'.ctx = t.ctx
  params : t'.params = t.params
  made : ∃ accesses, t.trace = s.trace ++ accesses ∧ t'.trace = s'.trace ++ accesses

section Updates

variable {s s' t t' : State}

theorem SameProgress.newAccesses_eq (h : SameProgress s s' t t') : newAccesses s' t' = newAccesses s t := by
  obtain ⟨accesses, ht, ht'⟩ := h.made
  simp [newAccesses, ht, ht']

theorem SameProgress.start (hctx : s'.ctx = s.ctx) (hparams : s'.params = s.params) : SameProgress s s' s s' where
  ctx := hctx
  params := hparams
  made := ⟨[], by simp⟩

theorem SameProgress.mapCtx (h : SameProgress s s' t t') (f : Context → Context) :
    SameProgress s s' { t with ctx := f t.ctx } { t' with ctx := f t'.ctx } :=
  { h with ctx := congrArg f h.ctx }

theorem SameProgress.advancePc (h : SameProgress s s' t t') : SameProgress s s' t.advancePc t'.advancePc :=
  h.mapCtx fun c => { c with pc := c.pc + 1 }

theorem SameProgress.setPhase (h : SameProgress s s' t t') (p : Phase) : SameProgress s s' (t.setPhase p) (t'.setPhase p) :=
  h.mapCtx fun c => { c with phase := p }

theorem SameProgress.setBuf (h : SameProgress s s' t t') (a : Nat) (b : Byte) :
    SameProgress s s' (t.setBuf a b) (t'.setBuf a b) :=
  h.mapCtx fun c => { c with buf := memWrite c.buf a b }

theorem SameProgress.raise (h : SameProgress s s' t t') (cause : FaultCause) :
    SameProgress s s' (t.raise cause) (t'.raise cause) :=
  h.mapCtx fun c => { c with faults := c.faults ++ [{ cause := cause, pc := c.pc }] }

theorem SameProgress.refuseWord (h : SameProgress s s' t t') : SameProgress s s' t.refuseWord t'.refuseWord :=
  h.mapCtx fun c => { c with refused := true }

theorem SameProgress.complete (h : SameProgress s s' t t') (r : Var) (v : Byte) :
    SameProgress s s' (t.complete r v) (t'.complete r v) :=
  h.mapCtx fun c => { c with vars := c.vars.set r (.byte v), pc := c.pc + 1 }

theorem SameProgress.endSequence (h : SameProgress s s' t t') : SameProgress s s' t.endSequence t'.endSequence :=
  (h.setPhase .idle).advancePc

theorem SameProgress.endDrain (h : SameProgress s s' t t') (w : Drain) : SameProgress s s' (t.endDrain w) (t'.endDrain w) :=
  h.mapCtx fun c => { c with vars := c.vars.set w.rd (.byte w.i), phase := .idle, pc := c.pc + 1 }

theorem SameProgress.emit (h : SameProgress s s' t t') (dir : Direction) (pos : Position) {w w' : CellWord} (hw : w' = w) :
    SameProgress s s' (t.emit dir pos w) (t'.emit dir pos w') := by
  obtain ⟨accesses, ht, ht'⟩ := h.made
  exact { h with made := ⟨accesses ++ [⟨dir, pos, w⟩], by simp [ht], by simp [ht', hw]⟩ }

theorem SameProgress.cellRead (h : SameProgress s s' t t') {pos : Position} (hanswer : t'.answer pos = t.answer pos) :
    SameProgress s s' (t.cellRead pos) (t'.cellRead pos) :=
  { h.emit .read pos hanswer with }

theorem SameProgress.cellWrite (h : SameProgress s s' t t') (pos : Position) (v : Byte) :
    SameProgress s s' (t.cellWrite pos v) (t'.cellWrite pos v) :=
  h.emit .write pos (by rw [h.params])

end Updates

/-- Both machines answer alike: next states with the same progress, or the same fault. -/
inductive SameView (s s' : State) : Result → Result → Prop where
  | next {t t' : State} (h : SameProgress s s' t t') : SameView s s' (.next t) (.next t')
  | fault (f : Fault) : SameView s s' (.fault f) (.fault f)

section Steps

variable {s s' : State}

theorem SameView.ite {c : Prop} [Decidable c] {a a' b b' : Result} (ha : SameView s s' a a') (hb : SameView s s' b b') :
    SameView s s' (if c then a else b) (if c then a' else b') := by
  split
  · exact ha
  · exact hb

theorem SameView.exists_next {t : State} {r' : Result} (h : SameView s s' (.next t) r') :
    ∃ t', r' = .next t' ∧ SameProgress s s' t t' := by
  cases h with
  | next h => exact ⟨_, rfl, h⟩

variable (h : SameProgress s s' s s')
include h

theorem withOperand_sameView (rs : Var) {k k' : Byte → Result} (hk : ∀ v, SameView s s' (k v) (k' v)) :
    SameView s s' (withOperand rs s k) (withOperand rs s' k') := by
  unfold withOperand State.var
  rw [h.ctx]
  cases s.ctx.vars[rs] with
  | byte v => exact hk v
  | unwritten => exact .next (h.raise _)

theorem pendingInterrupts_sameView (rd rs : Var) :
    SameView s s' (execIirPendingInterrupts rd rs s) (execIirPendingInterrupts rd rs s') := by
  refine withOperand_sameView h rs fun v => ?_
  cases decodeCause (causeField v) with
  | some p => exact .next (h.complete rd _)
  | none => exact .next (h.raise _)

variable (hdev : ∀ pos, s'.answer pos = s.answer pos)
include hdev

omit h in
theorem readByte_eq_of_answer_eq (pos : Position) : s'.readByte pos = s.readByte pos := congrArg cellValue (hdev pos)

theorem Meaning.sameView {m : State → Result} (hm : Meaning m) : SameView s s' (m s) (m s') := by
  cases hm with
  | const rd v => exact .next (h.complete rd v)
  | pure rd rs f => exact withOperand_sameView h rs fun v => .next (h.complete rd (f v))
  | viewRead pos rd =>
    rw [viewRead_eq, viewRead_eq, readByte_eq_of_answer_eq hdev]
    exact .next ((h.cellRead (hdev pos)).complete rd _)
  | viewWrite pos rs => exact withOperand_sameView h rs fun v => .next (h.cellWrite pos v).advancePc
  | pendingInterrupts rd rs => exact pendingInterrupts_sameView h rd rs
  | loads p => exact .next (h.setPhase p)

theorem runWord_sameView : SameView s s' (runWord s) (runWord s') := by
  unfold runWord State.fetch
  rw [h.ctx]
  cases s.ctx.program[s.ctx.pc]? with
  | none => exact .fault _
  | some w =>
    dsimp only
    cases decode w with
    | instr i => exact (exec_meaning i).sameView h hdev
    | refused e => exact .next h.refuseWord

theorem contextStep_sameView : SameView s s' (contextStep s) (contextStep s') := by
  have hbyte := readByte_eq_of_answer_eq hdev
  have hstatus := h.cellRead (hdev .lsr)
  unfold contextStep
  rw [h.ctx]
  cases s.ctx.phase with
  | idle => exact runWord_sameView h hdev
  | div0 d =>
    dsimp only [stepDiv0]
    rw [hbyte]
    exact .next ((h.cellRead (hdev .lcr)).setPhase _)
  | div1 d l => exact .next ((h.cellWrite .lcr _).setPhase _)
  | div2 d l => exact .next ((h.cellWrite .data _).setPhase _)
  | div3 d l => exact .next ((h.cellWrite .ier _).setPhase _)
  | div4 d l => exact .next (h.cellWrite .lcr l).endSequence
  | rdPoll w =>
    dsimp only [stepRdPoll]
    rw [hbyte]
    exact .ite (.next (h.endDrain w)) (.ite (.next (hstatus.setPhase _)) (.next (hstatus.endDrain w)))
  | rdData w =>
    dsimp only [stepRdData]
    rw [hbyte]
    exact .ite (.next (((h.cellRead (hdev .data)).setBuf _ _).setPhase _)) (.fault _)
  | wrPoll w =>
    dsimp only [stepWrPoll]
    rw [hbyte]
    exact .ite (.next (h.endDrain w)) (.ite (.next (hstatus.setPhase _)) (.next (hstatus.endDrain w)))
  | wrData w =>
    dsimp only [stepWrData, State.bufByte]
    rw [h.ctx]
    exact .ite (.next ((h.cellWrite .data _).setPhase _)) (.fault _)

end Steps

/-! ### Accesses per operation -/

/-- The opcodes of the view accesses, `0x10` to `0x1B` (R63). -/
def hasViewOpcode (i : Instr) : Bool := decide (0x10 ≤ (encodeFields i).op.toNat ∧ (encodeFields i).op.toNat ≤ 0x1B)

/-- The operations by the accesses of their own step: a view read, a view write, or none. -/
inductive AccessKind (i : Instr) : Prop where
  | read (pos : Position) (rd : Var) (hexec : exec i = viewRead pos rd) (hop : hasViewOpcode i = true) (hi : operandVar i = none)
  | write (pos : Position) (rs : Var) (hexec : exec i = viewWrite pos rs) (hop : hasViewOpcode i = true)
      (hi : operandVar i = some rs)
  | silent (hexec : ∀ s, ∃ t, exec i s = .next t ∧ t.trace = s.trace) (hop : hasViewOpcode i = false)

theorem withOperand_silent (rs : Var) (s : State) {k : Byte → Result} (hk : ∀ v, ∃ t, k v = .next t ∧ t.trace = s.trace) :
    ∃ t, withOperand rs s k = .next t ∧ t.trace = s.trace := by
  rcases withOperand_cases rs s k with ⟨v, -, hv⟩ | ⟨-, hv⟩
  · exact hv ▸ hk v
  · exact ⟨_, hv, rfl⟩

theorem pureOp_silent (rd rs : Var) (f : Byte → Byte) (s : State) : ∃ t, pureOp rd rs f s = .next t ∧ t.trace = s.trace :=
  withOperand_silent rs s fun v => ⟨s.complete rd (f v), rfl, rfl⟩

theorem pendingInterrupts_silent (rd rs : Var) (s : State) :
    ∃ t, execIirPendingInterrupts rd rs s = .next t ∧ t.trace = s.trace := by
  refine withOperand_silent rs s fun v => ?_
  cases decodeCause (causeField v) with
  | some p => exact ⟨_, rfl, rfl⟩
  | none => exact ⟨_, rfl, rfl⟩

theorem exec_accessKind (i : Instr) : AccessKind i := by
  cases i with
  | rbrRead rd | ierRead rd | iirRead rd | lcrRead rd | mcrRead rd | lsrRead rd | msrRead rd =>
    exact .read _ rd rfl rfl rfl
  | thrWrite rs | ierWrite rs | fcrWrite rs | lcrWrite rs | mcrWrite rs => exact .write _ rs rfl rfl rfl
  | iirPendingInterrupts rd rs => exact .silent (pendingInterrupts_silent rd rs) rfl
  | li | fifoAndReset | fifoWithoutReset | lcrDefault | writeDivisor | read | write =>
    exact .silent (fun s => ⟨_, rfl, rfl⟩) rfl
  | _ => exact .silent (pureOp_silent _ _ _) rfl

theorem opField_encode (i : Instr) : opField (encode i) = (encodeFields i).op.toNat := by
  rw [← toNat_op_ofWord, encode, Fields.ofWord_toWord]

theorem hasViewOpcode_iff (i : Instr) : 0x10 ≤ opField (encode i) ∧ opField (encode i) ≤ 0x1B ↔ hasViewOpcode i = true := by
  rw [opField_encode, hasViewOpcode, decide_eq_true_iff]

/-- The accesses of an operation's own step: one for a view access with its operand, none else. -/
theorem exec_trace_length {i : Instr} {s t : State} (h : exec i s = .next t) :
    t.trace.length = s.trace.length +
      if hasViewOpcode i = true ∧ ∀ rs, operandVar i = some rs → s.var rs ≠ .unwritten then 1 else 0 := by
  cases exec_accessKind i with
  | read pos rd hexec hop hi =>
    rw [hexec, viewRead_eq] at h
    obtain rfl := Host.Outcome.next.inj h
    simp [hop, hi]
  | write pos rs hexec hop hi =>
    rw [hexec] at h
    cases hv : s.var rs with
    | byte v =>
      rw [viewWrite_byte hv] at h
      obtain rfl := Host.Outcome.next.inj h
      simp [hop, hi, hv]
    | unwritten =>
      rw [viewWrite_unwritten hv] at h
      obtain rfl := Host.Outcome.next.inj h
      simp [hi, hv]
  | silent hexec hop =>
    obtain ⟨u, hu, htrace⟩ := hexec s
    obtain rfl := Host.Outcome.next.inj (hu.symm.trans h)
    simp [hop, htrace]

/-! ### The record after an operation -/

theorem decodeCause_eq_none_iff (v : Byte) :
    decodeCause (causeField v) = none ↔ v &&& 0x0F ∉ [0b0001#8, 0b0000#8, 0b0010#8, 0b0100#8, 0b1100#8, 0b0110#8] := by
  rw [← setWidth_causeField, ← isSome_decodeCause_iff, Option.not_isSome_iff_eq_none]

end Sys2Proof.Machine

namespace Sys2Proof

open Sys2Proof.Machine

/-- Settles O14: the answers at the seven positions are all that a context's step reads outside its context. -/
theorem contextSeesOnlyTheDevice : Obligations.ContextSeesOnlyTheDevice := by
  intro s s' t hctx hparams hdev h
  have hview : SameView s s' (contextStep s) (contextStep s') := contextStep_sameView (.start hctx hparams) hdev
  rw [h] at hview
  obtain ⟨t', ht', hprogress⟩ := hview.exists_next
  exact ⟨t', ht', hprogress.ctx, hprogress.newAccesses_eq⟩

/-- Settles O29, by the operations' kinds of access. -/
theorem accessCountsPerOperation : Obligations.AccessCountsPerOperation := by
  intro i s t h
  simpa only [← hasViewOpcode_iff, and_assoc] using exec_trace_length h

/-- Settles O46, by the shapes of an operation's next state. -/
theorem onlyTheTwoFaultsAreRaised : Obligations.OnlyTheTwoFaultsAreRaised := by
  intro i s
  obtain ⟨t, ht, hshape⟩ := exec_shape i s
  refine ⟨t, ht, ?_⟩
  cases hshape with
  | unwritten rs hi hv => exact .inr (.inl ⟨rs, hi, hv, rfl⟩)
  | invalidCause rd rs v hi hv hc => exact .inr (.inr ⟨rd, rs, v, hi, hv, (decodeCause_eq_none_iff v).mp hc, rfl⟩)
  | _ => exact .inl rfl

end Sys2Proof
end

section
/-! SUPPORT. When a context has a further step (R20, R65, R141) and what the step is then: the word at `pc` run, or refused with the mark set; and the reason of a machine that stops. -/

namespace Sys2Proof.Machine

open Sys2Proof.Claims

/-! ### Live contexts -/

section Live

variable {c : Context}

theorem Context.stopReason_eq_none_iff :
    c.stopReason = none ↔ c.faults = [] ∧ c.refused = false ∧ (c.phase = .idle → c.pc < c.program.length) := by
  unfold Context.stopReason
  split_ifs with hfaults hrefused hidle hlt hend
  all_goals simp_all

theorem Context.stopReason_of_faults (h : c.faults ≠ []) : c.stopReason = some .contextFaulted := by
  simp [Context.stopReason, h]

theorem Context.stopReason_of_refused (hf : c.faults = []) (hr : c.refused = true) :
    c.stopReason = some .contextRefused := by
  simp [Context.stopReason, hf, hr]

theorem Context.stopReason_of_completed (hf : c.faults = []) (hr : c.refused = false) (hp : c.phase = .idle)
    (hend : c.pc = c.program.length) : c.stopReason = some .contextCompleted := by
  simp [Context.stopReason, hf, hr, hp, hend]

/-- An idle context with nothing on record and a word at `pc` can step. -/
theorem Context.stopReason_of_word {w : OpWord} (hf : c.faults = []) (hr : c.refused = false)
    (hw : c.program[c.pc]? = some w) : c.stopReason = none := by
  obtain ⟨hlt, -⟩ := List.getElem?_eq_some_iff.mp hw
  exact Context.stopReason_eq_none_iff.mpr ⟨hf, hr, fun _ => hlt⟩

end Live

/-! ### The step of a live context, and the stop -/

section Step

variable {s : State} {w : OpWord}

theorem step_of_live (ha : baseAligned s.params = true) (hgo : s.ctx.stopReason = none) :
    step s = thenHandOver (contextStep s) := by
  simp [step, machineStep, ha, hgo]

theorem step_of_stopped_alone {r : Fault} (ha : baseAligned s.params = true) (halone : s.others = [])
    (hstop : s.ctx.stopReason = some r) : step s = .fault r := by
  simp [step, machineStep, passTurn, ha, halone, hstop]

theorem contextStep_of_instr {i : Instr} (hp : s.ctx.phase = .idle) (hw : s.ctx.program[s.ctx.pc]? = some w)
    (hd : decode w = .instr i) : contextStep s = exec i s := by
  simp [contextStep_idle hp, runWord, State.fetch, hw, hd]

theorem contextStep_of_refused {e : DecodeError} (hp : s.ctx.phase = .idle) (hw : s.ctx.program[s.ctx.pc]? = some w)
    (hd : decode w = .refused e) : contextStep s = .next s.refuseWord := by
  simp [contextStep_idle hp, runWord, State.fetch, hw, hd]

end Step

end Sys2Proof.Machine

namespace Sys2Proof

open Sys2Proof.Machine Sys2Proof.Claims

/-- Settles O5: the context is live, and its step is the word at `pc`. -/
theorem stepRunsTheDecodedInstruction : Obligations.StepRunsTheDecodedInstruction := by
  intro s w i ha hf hr hp hw hd
  rw [step_of_live ha (Context.stopReason_of_word hf hr hw), contextStep_of_instr hp hw hd]

/-- Settles O6: the next state is that of `refuseWord`. -/
theorem refusedWordSetsTheMark : Obligations.RefusedWordSetsTheMark := by
  intro s w e ha hf hr hp hw hd
  have hstep : step s = .next s.refuseWord.handOver := by
    rw [step_of_live ha (Context.stopReason_of_word hf hr hw), contextStep_of_refused hp hw hd]
    rfl
  exact ⟨s.refuseWord, hstep, rfl, rfl, fun _ => rfl, ⟨rfl, rfl⟩, ⟨rfl, rfl, rfl, fun _ => rfl⟩, rfl, hp,
    Context.stopReason_of_refused hf rfl⟩

/-- Settles O7: alone and stopped, the machine answers the reason of its context. -/
theorem stoppedMachineSaysWhy : Obligations.StoppedMachineSaysWhy := by
  intro s ha halone
  refine ⟨fun hf => ?faulted, fun hf hr => ?refused, fun hf hr hp hend => ?completed⟩
  case faulted => exact step_of_stopped_alone ha halone (Context.stopReason_of_faults hf)
  case refused => exact step_of_stopped_alone ha halone (Context.stopReason_of_refused hf hr)
  case completed => exact step_of_stopped_alone ha halone (Context.stopReason_of_completed hf hr hp hend)

end Sys2Proof
end

section
/-! SUPPORT. The invariant of a run (10_state.md, R137, R141): what it says part by part, that every shape of a context's step keeps each part, and that under it a live context always steps. -/

namespace Sys2Proof.Machine

/-! ### The parts of the invariant -/

theorem Context.wf_iff (c : Context) :
    c.wf = true ↔ c.buf.wf = true ∧ c.pc ≤ c.program.length ∧ c.phaseFits = true ∧ c.recordFits = true := by
  simp [Context.wf, and_assoc]

theorem State.wf_iff (s : State) :
    s.wf = true ↔ baseAligned s.params = true ∧ (∀ c ∈ s.contexts, c.wf = true) ∧
      ∀ a ∈ s.trace, accessAllowed a = true ∧ cellWidthOf a.word = s.params.width := by
  simp [State.wf, and_assoc]

theorem Context.runs_iff {c : Context} {i : Instr} :
    c.runs i = true ↔ ∃ w, c.program[c.pc]? = some w ∧ decode w = .instr i := by
  unfold Context.runs
  cases c.program[c.pc]? <;> simp

theorem Context.pc_lt_of_runs {c : Context} {i : Instr} (h : c.runs i = true) : c.pc < c.program.length := by
  obtain ⟨w, hw, -⟩ := Context.runs_iff.mp h
  exact (List.getElem?_eq_some_iff.mp hw).1

theorem Context.wellFormed_of_runs {c : Context} {i : Instr} (h : c.runs i = true) : i.wellFormed = true := by
  obtain ⟨w, -, hd⟩ := Context.runs_iff.mp h
  exact wellFormed_of_decode hd

/-- R20: while a context can step, `pc` is the index of a word. -/
theorem Context.pc_lt_of_live {c : Context} (hgo : c.stopReason = none) (hfits : c.phaseFits = true) :
    c.pc < c.program.length := by
  obtain ⟨-, -, hidle⟩ := Context.stopReason_eq_none_iff.mp hgo
  unfold Context.phaseFits at hfits
  split at hfits
  case h_1 hp => exact hidle hp
  case h_2 | h_3 | h_4 | h_5 | h_6 => exact Context.pc_lt_of_runs hfits
  case h_7 | h_8 | h_9 | h_10 => exact Context.pc_lt_of_runs (Bool.and_eq_true_iff.mp hfits).1

/-- R137: before its last byte, a drain's index lies in `BUF`. -/
theorem drainIndex_lt_bufSize {w : Drain} (hwindow : windowInBuffer w.base w.len = true) (hi : w.i.toNat < w.len.toNat) :
    drainIndex w < Config.bufSize := by
  have hfits : w.base.toNat + w.len.toNat ≤ Config.bufSize := of_decide_eq_true hwindow
  unfold drainIndex
  omega

theorem toNat_i_drainNext {w : Drain} (hi : w.i.toNat < w.len.toNat) : (drainNext w).i.toNat = w.i.toNat + 1 := by
  have hlen := w.len.isLt
  simp only [drainNext, BitVec.toNat_add, BitVec.toNat_ofNat]
  omega

/-! ### Every step keeps them -/

section Keeps

variable {s t : State}

theorem ExecShape.phaseFits {i : Instr} (h : ExecShape i s t) (hp : s.ctx.phase = .idle) (hruns : s.ctx.runs i = true) :
    t.ctx.phaseFits = true := by
  cases h with
  | completes | reads | writes | unwritten | invalidCause => simp [Context.phaseFits, hp]
  | loadsDivisor d hi => subst hi; exact hruns
  | loadsRead rd base len hi | loadsWrite rd base len hi =>
    subst hi
    exact Bool.and_eq_true_iff.mpr ⟨hruns, decide_eq_true (Nat.zero_le _)⟩

/-- Where the drain is not full there is a byte left to move. -/
theorem toNat_lt_of_ne {i len : Byte} (hle : i.toNat ≤ len.toNat) (hne : i ≠ len) : i.toNat < len.toNat :=
  lt_of_le_of_ne hle fun h => hne (BitVec.eq_of_toNat_eq h)

theorem StepShape.phaseFits (h : StepShape s t) (hfits : s.ctx.phaseFits = true) : t.ctx.phaseFits = true := by
  unfold Context.phaseFits at hfits
  cases h with
  | word w i t hp hf hd he => exact he.phaseFits hp (Context.runs_iff.mpr ⟨w, hf, hd⟩)
  | refusedWord w e hp => simp [Context.phaseFits, hp]
  | div4 | pollFull | pollNotReady => rfl
  | div0 d hp => rw [hp] at hfits; exact hfits
  | div1 d l hp | div2 d l hp | div3 d l hp => rw [hp] at hfits; exact hfits
  | rdReady w hp hi | wrReady w hp hi =>
    rw [hp] at hfits
    obtain ⟨hruns, hle⟩ := Bool.and_eq_true_iff.mp hfits
    exact Bool.and_eq_true_iff.mpr ⟨hruns, decide_eq_true (toNat_lt_of_ne (of_decide_eq_true hle) hi)⟩
  | rdData w hp | wrData w hp =>
    rw [hp] at hfits
    obtain ⟨hruns, hlt⟩ := Bool.and_eq_true_iff.mp hfits
    have hnext : (drainNext w).i.toNat ≤ w.len.toNat := by
      rw [toNat_i_drainNext (of_decide_eq_true hlt)]
      exact of_decide_eq_true hlt
    exact Bool.and_eq_true_iff.mpr ⟨hruns, decide_eq_true hnext⟩

theorem ExecShape.recordFits {i : Instr} (h : ExecShape i s t) (hp : s.ctx.phase = .idle) (hf : s.ctx.faults = [])
    (hr : s.ctx.refused = false) : t.ctx.recordFits = true := by
  cases h <;> simp [Context.recordFits, hf, hr, hp]

theorem StepShape.recordFits (h : StepShape s t) (hf : s.ctx.faults = []) (hr : s.ctx.refused = false) :
    t.ctx.recordFits = true := by
  cases h with
  | word w i t hp _ _ he => exact he.recordFits hp hf hr
  | refusedWord w e hp => simp [Context.recordFits, hf, hp]
  | _ => simp [Context.recordFits, hf, hr]

theorem StepShape.buf_wf (h : StepShape s t) (hwf : s.ctx.buf.wf = true) : t.ctx.buf.wf = true := by
  rcases h.buf_cases with hbuf | ⟨w, -, hindex, hbuf⟩
  · rwa [hbuf]
  · rw [hbuf]
    exact Memory.wf_memWrite hwf hindex _

theorem StepShape.ctx_wf (h : StepShape s t) (hgo : s.ctx.stopReason = none) (hwf : s.ctx.wf = true) :
    t.ctx.wf = true := by
  obtain ⟨hbuf, -, hfits, -⟩ := s.ctx.wf_iff.mp hwf
  obtain ⟨hf, hr, -⟩ := Context.stopReason_eq_none_iff.mp hgo
  obtain ⟨-, -, hprogram⟩ := h.others_params_program
  have hpc : t.ctx.pc ≤ t.ctx.program.length := by
    have hlt : s.ctx.pc < s.ctx.program.length := Context.pc_lt_of_live hgo hfits
    rw [hprogram]
    rcases h.advancesWriting.1 with h' | h' <;> omega
  exact t.ctx.wf_iff.mpr ⟨h.buf_wf hbuf, hpc, h.phaseFits hfits, h.recordFits hf hr⟩

theorem accessAllowed_of_write {a : Access} (h : a.dir = .write → a.pos ≠ .lsr ∧ a.pos ≠ .msr) : accessAllowed a = true := by
  obtain ⟨dir, pos, word⟩ := a
  cases dir <;> cases pos <;> simp_all [accessAllowed]

theorem AtMostOneAccess.trace_wf (h : AtMostOneAccess s t) (hparams : t.params = s.params)
    (htrace : ∀ a ∈ s.trace, accessAllowed a = true ∧ cellWidthOf a.word = s.params.width) :
    ∀ a ∈ t.trace, accessAllowed a = true ∧ cellWidthOf a.word = t.params.width := by
  rw [hparams]
  rcases h with h | ⟨b, h, hwidth, hwrite⟩ <;> rw [h]
  · exact htrace
  · simpa [or_imp, forall_and, accessAllowed_of_write hwrite, hwidth] using htrace

theorem StepShape.wf (h : StepShape s t) (hgo : s.ctx.stopReason = none) (hwf : s.wf = true) : t.wf = true := by
  obtain ⟨haligned, hcontexts, htrace⟩ := s.wf_iff.mp hwf
  obtain ⟨hothers, hparams, -⟩ := h.others_params_program
  refine t.wf_iff.mpr ⟨hparams ▸ haligned, fun c hc => ?_, h.atMostOneAccess.trace_wf hparams htrace⟩
  rcases List.mem_cons.mp hc with rfl | hc
  · exact h.ctx_wf hgo (hcontexts s.ctx List.mem_cons_self)
  · exact hcontexts c (List.mem_cons_of_mem _ (hothers ▸ hc))

theorem State.handOver_wf (hwf : s.wf = true) : s.handOver.wf = true := by
  obtain ⟨haligned, hcontexts, htrace⟩ := s.wf_iff.mp hwf
  refine s.handOver.wf_iff.mpr ⟨by simpa using haligned, fun c hc => ?_, by simpa using htrace⟩
  exact hcontexts c (State.mem_handOver_contexts.mp hc)

end Keeps

/-! ### A live context always steps -/

section Progress

variable {s : State}

theorem exists_contextStep (hgo : s.ctx.stopReason = none) (hfits : s.ctx.phaseFits = true) :
    ∃ t, contextStep s = .next t := by
  unfold Context.phaseFits at hfits
  split at hfits
  case h_1 hp =>
    obtain ⟨-, -, hidle⟩ := Context.stopReason_eq_none_iff.mp hgo
    obtain ⟨w, hw⟩ : ∃ w, s.ctx.program[s.ctx.pc]? = some w := ⟨_, List.getElem?_eq_getElem (hidle hp)⟩
    cases hd : decode w with
    | instr i =>
      obtain ⟨t, ht, -⟩ := exec_shape i s
      exact ⟨t, (contextStep_of_instr hp hw hd).trans ht⟩
    | refused e => exact ⟨_, contextStep_of_refused hp hw hd⟩
  case h_2 d hp => exact ⟨_, contextStep_div0 hp⟩
  case h_3 d l hp => exact ⟨_, contextStep_div1 hp⟩
  case h_4 d l hp => exact ⟨_, contextStep_div2 hp⟩
  case h_5 d l hp => exact ⟨_, contextStep_div3 hp⟩
  case h_6 d l hp => exact ⟨_, contextStep_div4 hp⟩
  case h_7 w hp =>
    by_cases hi : w.i = w.len
    · exact ⟨_, contextStep_rdPoll_full hp hi⟩
    · cases hr : flagDataReady (s.readByte .lsr) with
      | true => exact ⟨_, contextStep_rdPoll_ready hp hi hr⟩
      | false => exact ⟨_, contextStep_rdPoll_notReady hp hi hr⟩
  case h_8 w hp =>
    obtain ⟨hruns, hlt⟩ := Bool.and_eq_true_iff.mp hfits
    exact ⟨_, contextStep_rdData hp (drainIndex_lt_bufSize (Context.wellFormed_of_runs hruns) (of_decide_eq_true hlt))⟩
  case h_9 w hp =>
    by_cases hi : w.i = w.len
    · exact ⟨_, contextStep_wrPoll_full hp hi⟩
    · cases hr : flagThrEmpty (s.readByte .lsr) with
      | true => exact ⟨_, contextStep_wrPoll_ready hp hi hr⟩
      | false => exact ⟨_, contextStep_wrPoll_notReady hp hi hr⟩
  case h_10 w hp =>
    obtain ⟨hruns, hlt⟩ := Bool.and_eq_true_iff.mp hfits
    exact ⟨_, contextStep_wrData hp (drainIndex_lt_bufSize (Context.wellFormed_of_runs hruns) (of_decide_eq_true hlt))⟩

end Progress

end Sys2Proof.Machine

namespace Sys2Proof

open Sys2Proof.Machine

/-- Settles O16: the context whose turn it is stays well formed by the shapes of its step, and the hand-over keeps the
contexts and the trace. -/
theorem stepKeepsTheStateWellFormed : Obligations.StepKeepsTheStateWellFormed := by
  intro s t hwf h
  rcases step_next h with ⟨u, hgo, hu, rfl⟩ | ⟨-, rfl⟩
  · exact State.handOver_wf ((contextStep_shape hu).wf hgo hwf)
  · exact State.handOver_wf hwf

/-- Settles O18: the word at `pc` is there, and the window of a drain lies in the buffer because its word decodes. -/
theorem liveContextsAlwaysStep : Obligations.LiveContextsAlwaysStep := by
  intro s hwf hlive
  obtain ⟨haligned, hcontexts, -⟩ := s.wf_iff.mp hwf
  obtain ⟨-, -, hfits, -⟩ := s.ctx.wf_iff.mp (hcontexts s.ctx List.mem_cons_self)
  have hgo : s.ctx.stopReason = none := s.ctx.live_eq_true_iff.mp hlive
  obtain ⟨t, ht⟩ := exists_contextStep hgo hfits
  exact ⟨t.handOver, by rw [step_of_live haligned hgo, ht]; rfl⟩

/-- Settles O17: nothing is traced, and the one context is a launch with an empty program and buffer. -/
theorem resetIsWellFormed : Obligations.ResetIsWellFormed := by
  refine State.reset.wf_iff.mpr ⟨rfl, fun c hc => ?_, nofun⟩
  obtain rfl : c = Context.launch [] [] := List.mem_singleton.mp hc
  exact (Context.wf_iff _).mpr ⟨Memory.wf_nil, le_rfl, rfl, rfl⟩

end Sys2Proof
end

section
/-! SUPPORT. The rows of the transfer machine as the claims state them (R129, R131, R133): the decode that loads it, and each row's access, next phase and frame. -/

namespace Sys2Proof.Claims

open Sys2Proof.Machine

theorem toWord_fieldsX (op : BitVec 8) (rd : Var) (base len : Byte) :
    (fieldsX op rd base len).toWord = word op (varBits rd) 0 base len := by
  rw [← varField_eq_varBits, ← toWord_eq_word]; rfl

theorem toWord_fieldsI16 (op : BitVec 8) (d : BitVec 16) :
    (fieldsI16 op d).toWord = word op 0 0 (d.extractLsb' 8 8) (d.extractLsb' 0 8) := by
  rw [← toWord_eq_word]
  exact congrArg Fields.toWord (congrArg (Fields.mk op 0 0) (Fields.imm_eq_append (fieldsI16 op d)))

section Rows

variable {s t : State}

theorem keepsSetup_setPhase (p : Phase) : KeepsSetup s (s.setPhase p) := ⟨rfl, rfl, rfl, fun _ => rfl⟩

/-- A context's step is a row when it answers the phase and the `pc` given and keeps all else of the machine's frame. -/
theorem row_of_next {phase : Phase} {pc : Nat} {effect : State → Prop} (h : contextStep s = .next t)
    (hphase : t.ctx.phase = phase) (hpc : t.ctx.pc = pc) (hrecord : t.ctx.faults = s.ctx.faults ∧ t.ctx.refused = s.ctx.refused)
    (heffect : effect t) : Row s phase pc effect := by
  obtain ⟨hothers, hparams, hprogram⟩ := (contextStep_shape h).others_params_program
  exact ⟨t, h, hphase, hpc, hparams, hothers, hprogram, hrecord.1, hrecord.2, heffect⟩

end Rows

end Sys2Proof.Claims

namespace Sys2Proof

open Sys2Proof.Machine Sys2Proof.Claims

/-- Settles O47: each of the three is a `setPhase`. -/
theorem transferOperationsLoadTheMachine : Obligations.TransferOperationsLoadTheMachine := by
  refine ⟨fun d s => ⟨toWord_fieldsI16 0x70 d, ?divisor⟩, fun rd base len s => ⟨toWord_fieldsX 0x71 rd base len, ?read⟩,
    fun rd base len s => ⟨toWord_fieldsX 0x72 rd base len, ?write⟩⟩
  all_goals exact ⟨_, rfl, rfl, rfl, fun _ => rfl, ⟨rfl, rfl⟩, keepsSetup_setPhase _, rfl, rfl⟩

/-- Settles O48: each phase has its one row. -/
theorem divisorRows : Obligations.DivisorRows := by
  refine fun s d l => ⟨fun hp => ?div0, fun hp => ?div1, fun hp => ?div2, fun hp => ?div3, fun hp => ?div4⟩
  case div0 =>
    exact row_of_next (contextStep_div0 hp) rfl rfl ⟨rfl, rfl⟩ ⟨oneRead_cellRead s .lcr, fun _ => rfl, fun _ => rfl⟩
  case div1 =>
    exact row_of_next (contextStep_div1 hp) rfl rfl ⟨rfl, rfl⟩ ⟨oneWrite_cellWrite s .lcr _, fun _ => rfl, fun _ => rfl⟩
  case div2 =>
    exact row_of_next (contextStep_div2 hp) rfl rfl ⟨rfl, rfl⟩ ⟨oneWrite_cellWrite s .data _, fun _ => rfl, fun _ => rfl⟩
  case div3 =>
    exact row_of_next (contextStep_div3 hp) rfl rfl ⟨rfl, rfl⟩ ⟨oneWrite_cellWrite s .ier _, fun _ => rfl, fun _ => rfl⟩
  case div4 =>
    exact row_of_next (contextStep_div4 hp) rfl rfl ⟨rfl, rfl⟩ ⟨oneWrite_cellWrite s .lcr l, fun _ => rfl, fun _ => rfl⟩

/-- Settles O49: a polling step ends the drain or goes on to the data, and the data row writes one byte. -/
theorem readDrainRows : Obligations.ReadDrainRows := by
  refine fun s w => ⟨fun hp hi => ?full, fun hp hi hr => ?notReady, fun hp hi hr => ?ready, fun hp hwf hb => ?data⟩
  case full =>
    exact row_of_next (contextStep_rdPoll_full hp hi) rfl rfl ⟨rfl, rfl⟩ ⟨⟨rfl, rfl⟩, setsVar_endDrain w, fun _ => rfl⟩
  case notReady =>
    exact row_of_next (contextStep_rdPoll_notReady hp hi hr) rfl rfl ⟨rfl, rfl⟩
      ⟨oneRead_cellRead s .lsr, (keepsVars_cellRead s .lsr).setsVar (setsVar_endDrain w), fun _ => rfl⟩
  case ready =>
    exact row_of_next (contextStep_rdPoll_ready hp hi hr) rfl rfl ⟨rfl, rfl⟩
      ⟨oneRead_cellRead s .lsr, fun _ => rfl, fun _ => rfl⟩
  case data =>
    have hread (a : Nat) := bufByte_setBuf (s := s.cellRead .data) hwf (drainIndex w) a (s.readByte .data)
    exact row_of_next (contextStep_rdData hp hb) rfl rfl ⟨rfl, rfl⟩
      ⟨oneRead_cellRead s .data, fun _ => rfl, (hread _).trans (if_pos rfl), fun a ha => (hread a).trans (if_neg (Ne.symm ha))⟩

/-- Settles O50: a polling step ends the drain or goes on to the data, and the data row only writes position 0. -/
theorem writeDrainRows : Obligations.WriteDrainRows := by
  refine fun s w => ⟨fun hp hi => ?full, fun hp hi hr => ?notReady, fun hp hi hr => ?ready, fun hp hb => ?data⟩
  case full =>
    exact row_of_next (contextStep_wrPoll_full hp hi) rfl rfl ⟨rfl, rfl⟩ ⟨⟨rfl, rfl⟩, setsVar_endDrain w, fun _ => rfl⟩
  case notReady =>
    exact row_of_next (contextStep_wrPoll_notReady hp hi hr) rfl rfl ⟨rfl, rfl⟩
      ⟨oneRead_cellRead s .lsr, (keepsVars_cellRead s .lsr).setsVar (setsVar_endDrain w), fun _ => rfl⟩
  case ready =>
    exact row_of_next (contextStep_wrPoll_ready hp hi hr) rfl rfl ⟨rfl, rfl⟩
      ⟨oneRead_cellRead s .lsr, fun _ => rfl, fun _ => rfl⟩
  case data =>
    exact row_of_next (contextStep_wrData hp hb) rfl rfl ⟨rfl, rfl⟩ ⟨oneWrite_cellWrite s .data _, fun _ => rfl, fun _ => rfl⟩

end Sys2Proof
end

section
/-! SUPPORT. Line control in the trace (R136, R151, R154, R155): which byte was last written to it, that the drains and every access but a write of it leave that byte, and that under the exclusion it is the one of `DIV1` until both divisor bytes are written. -/

namespace Sys2Proof.Machine

open Sys2Proof.Claims

/-- A write of line control. -/
abbrev writesLineControl (a : Access) : Prop := a.dir = .write ∧ a.pos = .lcr

/-! ### The last write of line control -/

theorem lastLineControl_eq_none_iff {trace : List Access} :
    lastLineControl trace = none ↔ ∀ a ∈ trace, ¬ writesLineControl a := by
  induction trace with
  | nil => simp [lastLineControl]
  | cons a rest ih =>
    rw [List.forall_mem_cons, ← ih, lastLineControl]
    cases lastLineControl rest with
    | some v => simp
    | none => simp [writesLineControl]

theorem lastLineControl_of_split {before after : List Access} {b : Access} (hb : writesLineControl b)
    (hafter : ∀ a ∈ after, ¬ writesLineControl a) : lastLineControl (before ++ b :: after) = some (cellValue b.word) := by
  induction before with
  | nil => simp [lastLineControl, lastLineControl_eq_none_iff.mpr hafter, hb.1, hb.2]
  | cons a before ih => rw [List.cons_append, lastLineControl, ih]

theorem exists_split_of_lastLineControl {trace : List Access} {v : Byte} (h : lastLineControl trace = some v) :
    ∃ before b after, trace = before ++ b :: after ∧ writesLineControl b ∧ cellValue b.word = v ∧
      ∀ a ∈ after, ¬ writesLineControl a := by
  induction trace with
  | nil => cases h
  | cons a rest ih =>
    rw [lastLineControl] at h
    cases hrest : lastLineControl rest with
    | some u =>
      obtain rfl : u = v := by simpa [hrest] using h
      obtain ⟨before, b, after, rfl, hb⟩ := ih hrest
      exact ⟨a :: before, b, after, rfl, hb⟩
    | none =>
      obtain ⟨ha, hv⟩ : writesLineControl a ∧ cellValue a.word = v := by simpa [hrest] using h
      exact ⟨[], a, rest, rfl, ha, hv, lastLineControl_eq_none_iff.mp hrest⟩

/-- DLAB is known clear exactly when the trace splits at a last write of line control with bit 7 clear. -/
theorem dlabKnownClear_iff {trace : List Access} :
    dlabKnownClear trace = true ↔
      ∃ before b after, trace = before ++ b :: after ∧ writesLineControl b ∧ (cellValue b.word).getLsbD 7 = false ∧
        ∀ a ∈ after, ¬ writesLineControl a := by
  constructor
  · intro h
    unfold dlabKnownClear at h
    cases hlast : lastLineControl trace with
    | none => simp [hlast] at h
    | some v =>
      obtain ⟨before, b, after, rfl, hb, rfl, hafter⟩ := exists_split_of_lastLineControl hlast
      exact ⟨before, b, after, rfl, hb, by simpa [hlast] using h, hafter⟩
  · rintro ⟨before, b, after, rfl, hb, hbit, hafter⟩
    simp only [dlabKnownClear, lastLineControl_of_split hb hafter, hbit, Bool.not_false]

theorem dlabHazard_eq_false_iff {trace : List Access} {a : Access} :
    dlabHazard trace a = false ↔ (a.pos ≠ .data ∧ a.pos ≠ .ier) ∨ dlabKnownClear trace = true := by
  cases hclear : dlabKnownClear trace <;> simp [dlabHazard, hclear]

/-! ### Accesses that leave it -/

section Steps

variable {s t : State}

theorem newAccesses_of_append {accesses : List Access} (h : t.trace = s.trace ++ accesses) : newAccesses s t = accesses := by
  simp [newAccesses, h]

theorem AtMostOneAccess.lastLineControl_eq (h : AtMostOneAccess s t) (hnew : ∀ a ∈ newAccesses s t, ¬ writesLineControl a) :
    lastLineControl t.trace = lastLineControl s.trace := by
  rcases h with h | ⟨a, h, -⟩
  · rw [h]
  · rw [newAccesses_of_append h] at hnew
    rw [h, lastLineControl_append, if_neg (hnew a List.mem_cons_self)]

/-- R136: the phases of the drains reach positions 0 and 5 only. -/
theorem StepShape.newAccesses_of_drain (h : StepShape s t) {w : Drain}
    (hp : s.ctx.phase = .rdPoll w ∨ s.ctx.phase = .rdData w ∨ s.ctx.phase = .wrPoll w ∨ s.ctx.phase = .wrData w) :
    ∀ a ∈ newAccesses s t, a.pos = .data ∨ a.pos = .lsr := by
  cases h with
  | word _ _ _ hp' | refusedWord _ _ hp' | div0 _ hp' | div1 _ _ hp' | div2 _ _ hp' | div3 _ _ hp' | div4 _ _ hp' =>
    simp [hp'] at hp
  | pollFull => simp [newAccesses]
  | pollNotReady | rdReady | wrReady | rdData | wrData => simp [newAccesses]

theorem not_writesLineControl_of_drain {a : Access} (h : a.pos = .data ∨ a.pos = .lsr) : ¬ writesLineControl a := by
  rintro ⟨-, hpos⟩
  simp [hpos] at h

theorem not_writesLineControl_of_not_excluded {a : Access} (h : (!excludedAccess a) = true) : ¬ writesLineControl a := by
  rintro ⟨hdir, hpos⟩
  simp [excludedAccess, hdir, hpos] at h

/-! ### The divisor sequence -/

/-- The phases between the write of `DIV1` and the last divisor byte, with the `L` read. -/
def inLatchWindow (p : Phase) (l : Byte) : Prop := ∃ d, p = .div2 d l ∨ p = .div3 d l

theorem ExecShape.not_inLatchWindow {i : Instr} (h : ExecShape i s t) (hp : s.ctx.phase = .idle) (l : Byte) :
    ¬ inLatchWindow t.ctx.phase l := by
  cases h <;> simp [inLatchWindow, hp]

/-- The step of a context into or inside the window: `DIV1` writes the byte, `DIV2` leaves it. -/
theorem StepShape.lastLineControl_of_window (h : StepShape s t) {l : Byte} (ht : inLatchWindow t.ctx.phase l)
    (hs : inLatchWindow s.ctx.phase l → lastLineControl s.trace = some (l ||| 0x80#8)) :
    lastLineControl t.trace = some (l ||| 0x80#8) := by
  cases h with
  | word w i t hp _ _ he => exact absurd ht (he.not_inLatchWindow hp l)
  | refusedWord w e hp => simp [inLatchWindow, hp] at ht
  | div1 d l' hp =>
    obtain rfl : l' = l := by simpa [inLatchWindow] using ht
    simp [lastLineControl_append]
  | div2 d l' hp =>
    obtain rfl : l' = l := by simpa [inLatchWindow] using ht
    simpa [lastLineControl_append] using hs ⟨d, .inl hp⟩
  | _ => simp [inLatchWindow] at ht

theorem lineControlAsDiv1Wrote_iff :
    lineControlAsDiv1Wrote s ↔
      ∀ c ∈ s.contexts, ∀ l, inLatchWindow c.phase l → lastLineControl s.trace = some (l ||| 0x80#8) := by
  simp only [lineControlAsDiv1Wrote, inLatchWindow, forall_exists_index]
  exact forall₂_congr fun _ _ => forall_comm

theorem inDivisor_of_window {c : Context} {l : Byte} (h : inLatchWindow c.phase l) : c.inDivisor = true := by
  obtain ⟨d, hp | hp⟩ := h <;> simp [Context.inDivisor, hp]

/-- R155: with another context in the window, the exclusion lets the step write no line control. -/
theorem lastLineControl_eq_of_exclusion (h : AtMostOneAccess s t) (hkeeps : keepsDivisorExclusion s t = true) {c : Context}
    (hc : c ∈ s.others) {l : Byte} (hwindow : inLatchWindow c.phase l) :
    lastLineControl t.trace = lastLineControl s.trace := by
  have hany : s.others.any Context.inDivisor = true := List.any_eq_true.mpr ⟨c, hc, inDivisor_of_window hwindow⟩
  have hnew : ∀ a ∈ newAccesses s t, (!excludedAccess a) = true := by simpa [keepsDivisorExclusion, hany] using hkeeps
  exact h.lastLineControl_eq fun a ha => not_writesLineControl_of_not_excluded (hnew a ha)

theorem StepShape.lineControlAsDiv1Wrote (h : StepShape s t) (hkeeps : keepsDivisorExclusion s t = true)
    (hs : lineControlAsDiv1Wrote s) : lineControlAsDiv1Wrote t := by
  rw [lineControlAsDiv1Wrote_iff] at hs ⊢
  intro c hc l hwindow
  rcases List.mem_cons.mp hc with rfl | hc
  · exact h.lastLineControl_of_window hwindow (hs s.ctx List.mem_cons_self l)
  · have hc : c ∈ s.others := h.others ▸ hc
    rw [lastLineControl_eq_of_exclusion h.atMostOneAccess hkeeps hc hwindow]
    exact hs c (List.mem_cons_of_mem _ hc) l hwindow

theorem lineControlAsDiv1Wrote_handOver (h : lineControlAsDiv1Wrote s) : lineControlAsDiv1Wrote s.handOver := by
  intro c hc
  rw [State.handOver_trace]
  exact h c (State.mem_handOver_contexts.mp hc)

end Steps

end Sys2Proof.Machine

namespace Sys2Proof

open Sys2Proof.Machine Sys2Proof.Claims

/-- Settles O58: `DIV1` writes the byte, `DIV2` leaves it, and while a context is in the window the exclusion keeps the
others from writing line control. -/
theorem lineControlStaysAsDiv1WroteIt : Obligations.LineControlStaysAsDiv1WroteIt := by
  intro s t h hkeeps hs
  rcases step_next h with ⟨u, -, hu, rfl⟩ | ⟨-, rfl⟩
  · have hkeeps' : keepsDivisorExclusion s u = true := by simpa [keepsDivisorExclusion, newAccesses] using hkeeps
    exact lineControlAsDiv1Wrote_handOver ((contextStep_shape hu).lineControlAsDiv1Wrote hkeeps' hs)
  · exact lineControlAsDiv1Wrote_handOver hs

/-- Settles O57: an access to position 0 or 5 is no write of line control. -/
theorem drainsLeaveLineControlAlone : Obligations.DrainsLeaveLineControlAlone := by
  intro s t w hp h
  have hshape : StepShape s t := contextStep_shape h
  have hnew := hshape.newAccesses_of_drain hp
  exact ⟨hshape.atMostOneAccess.lastLineControl_eq fun a ha => not_writesLineControl_of_drain (hnew a ha), hnew⟩

/-- Settles O59: the hazard is read off the last write of line control; construction has none, and `DIV4` makes it. -/
theorem dlabHazardUnlessWrittenClear : Obligations.DlabHazardUnlessWrittenClear := by
  refine ⟨fun trace a => ?characterised, fun p first further env s h a ha => ?construction, fun s t d l hp h hl a => ?div4⟩
  case characterised =>
    rw [dlabHazard_eq_false_iff, dlabKnownClear_iff]
    simp only [writesLineControl, and_assoc]
  case construction =>
    obtain ⟨-, rfl⟩ := construct_eq_some_iff.mp h
    simpa [dlabHazard] using ha
  case div4 =>
    rw [contextStep_div4 hp] at h
    obtain rfl := Host.Outcome.next.inj h
    have hclear : dlabKnownClear (s.cellWrite .lcr l).endSequence.trace = true := by
      simp only [State.endSequence_trace, State.cellWrite_trace, dlabKnownClear_append, cellValue_cellOfByte, hl, and_self,
        if_true, Bool.not_false]
    exact dlabHazard_eq_false_iff.mpr (.inr hclear)

end Sys2Proof
end

section
/-! SUPPORT. A transfer machine run alone (R128 to R134): the steps of a lone context, `write_divisor` step by step, and both drains as one loop that the machine computes round by round. -/

namespace Sys2Proof.Machine

open Sys2Proof.Claims

/-! ### Steps of a lone context -/

/-- A machine of one context with nothing on record. -/
structure Running (s : State) : Prop where
  aligned : baseAligned s.params = true
  alone : s.others = []
  noFault : s.ctx.faults = []
  notRefused : s.ctx.refused = false

section Lone

variable {s t : State} {p : Phase}

theorem Running.congr (h : Running s) (hparams : t.params = s.params) (hothers : t.others = s.others)
    (hfaults : t.ctx.faults = s.ctx.faults) (hrefused : t.ctx.refused = s.ctx.refused) : Running t where
  aligned := hparams ▸ h.aligned
  alone := hothers ▸ h.alone
  noFault := hfaults ▸ h.noFault
  notRefused := hrefused ▸ h.notRefused

theorem thenHandOver_alone (h : t.others = []) : thenHandOver (.next t) = .next t := congrArg _ (State.handOver_alone h)

/-- While a sequence runs, the step is the context's step. -/
theorem Running.step_setPhase (h : Running s) (hp : p ≠ .idle) (hnext : contextStep (s.setPhase p) = .next t) :
    step (s.setPhase p) = .next t := by
  have hgo : (s.setPhase p).ctx.stopReason = none :=
    Context.stopReason_eq_none_iff.mpr ⟨h.noFault, h.notRefused, fun hidle => absurd hidle hp⟩
  have halone : t.others = [] := (contextStep_shape hnext).others.trans h.alone
  rw [step_of_live (s := s.setPhase p) h.aligned hgo, hnext, thenHandOver_alone halone]

theorem Running.cellRead (h : Running s) (pos : Position) : Running (s.cellRead pos) := h.congr rfl rfl rfl rfl

theorem Running.cellWrite (h : Running s) (pos : Position) (v : Byte) : Running (s.cellWrite pos v) :=
  h.congr rfl rfl rfl rfl

theorem setPhase_of_phase_eq (h : s.ctx.phase = p) : s.setPhase p = s := by
  subst h; rfl

theorem running_of_ready {i : Instr} (h : Ready s i) : Running s := ⟨h.aligned, h.alone, h.noFault, h.notRefused⟩

theorem step_of_ready {i : Instr} (h : Ready s i) (hexec : exec i s = .next (s.setPhase p)) :
    step s = .next (s.setPhase p) := by
  obtain ⟨w, hw, hd⟩ := h.fetches
  rw [step_of_live h.aligned (Context.stopReason_of_word h.noFault h.notRefused hw), contextStep_of_instr h.idle hw hd, hexec,
    thenHandOver_alone (t := s.setPhase p) h.alone]

theorem wellFormed_of_ready {i : Instr} (h : Ready s i) : i.wellFormed = true := by
  obtain ⟨w, -, hd⟩ := h.fetches
  exact wellFormed_of_decode hd

theorem stepsFrom_succ (h : step s = .next t) (k : Nat) : stepsFrom (k + 1) s = stepsFrom k t := by
  simp [stepsFrom, h]

theorem stepsFrom_add {j : Nat} (h : stepsFrom j s = .next t) (k : Nat) : stepsFrom (j + k) s = stepsFrom k t := by
  induction j generalizing s with
  | zero =>
    obtain rfl := Host.Outcome.next.inj h
    rw [Nat.zero_add]
  | succ j ih =>
    rw [Nat.succ_add]
    cases hstep : step s with
    | next u =>
      rw [stepsFrom_succ hstep] at h ⊢
      exact ih h
    | fault f => simp [stepsFrom, hstep] at h
    | refused q => simp [stepsFrom, hstep] at h

end Lone

/-! ### `write_divisor` -/

section Divisor

variable {s : State} {d : BitVec 16} {l : Byte} (h : Running s)
include h

theorem Running.step_div0 :
    step (s.setPhase (.div0 d)) = .next ((s.cellRead .lcr).setPhase (.div1 d (s.readByte .lcr))) :=
  h.step_setPhase (by simp) rfl

theorem Running.step_div1 :
    step (s.setPhase (.div1 d l)) = .next ((s.cellWrite .lcr (l ||| 0x80#8)).setPhase (.div2 d l)) :=
  h.step_setPhase (by simp) rfl

theorem Running.step_div2 :
    step (s.setPhase (.div2 d l)) = .next ((s.cellWrite .data (d.extractLsb' 0 8)).setPhase (.div3 d l)) :=
  h.step_setPhase (by simp) rfl

theorem Running.step_div3 :
    step (s.setPhase (.div3 d l)) = .next ((s.cellWrite .ier (d.extractLsb' 8 8)).setPhase (.div4 d l)) :=
  h.step_setPhase (by simp) rfl

theorem Running.step_div4 : step (s.setPhase (.div4 d l)) = .next ((s.cellWrite .lcr l).advancePc.setPhase .idle) :=
  h.step_setPhase (by simp) rfl

end Divisor

/-- The decode and the five rows, each over the state that the accesses before it have made. -/
theorem stepsFrom_writeDivisor {s : State} {d : BitVec 16} (h : Ready s (.writeDivisor d)) :
    stepsFrom 6 s = .next (seqWriteDivisor d s) := by
  have h0 : Running s := running_of_ready h
  have h1 := h0.cellRead .lcr
  have h2 := h1.cellWrite .lcr (s.readByte .lcr ||| 0x80#8)
  have h3 := h2.cellWrite .data (d.extractLsb' 0 8)
  have h4 := h3.cellWrite .ier (d.extractLsb' 8 8)
  rw [stepsFrom_succ (step_of_ready h rfl), stepsFrom_succ h0.step_div0, stepsFrom_succ h1.step_div1,
    stepsFrom_succ h2.step_div2, stepsFrom_succ h3.step_div3, stepsFrom_succ h4.step_div4]
  exact congrArg _ (setPhase_of_phase_eq h.idle)

/-! ### The drains as one loop -/

/-- The loop of R130 and R132, with `n` bytes left in the window and `i` moved: while the device is ready one more round. -/
def drainLoop (ready : State → Bool) (round : Nat → State → State) (rd : Var) : Nat → Nat → State → State
  | 0, i, s => s.complete rd (BitVec.ofNat 8 i)
  | n + 1, i, s =>
    if ready s then drainLoop ready round rd n (i + 1) (round i s) else (s.cellRead .lsr).complete rd (BitVec.ofNat 8 i)

/-- The test of R130. -/
def readReady (s : State) : Bool := flagDataReady (s.readByte .lsr)

/-- The test of R132. -/
def writeReady (s : State) : Bool := flagThrEmpty (s.readByte .lsr)

theorem seqReadLoop_eq_drainLoop (rd : Var) (base n i : Nat) (s : State) :
    seqReadLoop rd base n i s = drainLoop readReady (readRound base) rd n i s := by
  induction n generalizing i s with
  | zero => rfl
  | succ n ih => simp only [seqReadLoop, drainLoop, ih]; rfl

theorem seqWriteLoop_eq_drainLoop (rd : Var) (base n i : Nat) (s : State) :
    seqWriteLoop rd base n i s = drainLoop writeReady (writeRound base) rd n i s := by
  induction n generalizing i s with
  | zero => rfl
  | succ n ih => simp only [seqWriteLoop, drainLoop, ih]; rfl

theorem seqRead_eq_drainLoop (rd : Var) (base len : Byte) (s : State) :
    seqRead rd base len s = drainLoop readReady (readRound base.toNat) rd len.toNat 0 s :=
  seqReadLoop_eq_drainLoop rd base.toNat len.toNat 0 s

theorem seqWrite_eq_drainLoop (rd : Var) (base len : Byte) (s : State) :
    seqWrite rd base len s = drainLoop writeReady (writeRound base.toNat) rd len.toNat 0 s :=
  seqWriteLoop_eq_drainLoop rd base.toNat len.toNat 0 s

/-! ### The machine of a drain -/

/-- What a round of a drain leaves alone: all of the state but the trace, the environment and the buffer. -/
structure RoundFrame (s t : State) : Prop where
  params : t.params = s.params
  others : t.others = s.others
  pc : t.ctx.pc = s.ctx.pc
  records : KeepsRecords s t

/-- The rows of R131 or R133, with the machine in the phase `poll w` over a state `s`: the drain ends, or two steps make one
round of two accesses. -/
structure DrainMachine (poll : Drain → Phase) (ready : State → Bool) (round : Nat → Nat → State → State) : Prop where
  poll_ne_idle (w : Drain) : poll w ≠ .idle
  full (s : State) (w : Drain) (hi : w.i = w.len) :
    contextStep (s.setPhase (poll w)) = .next ((s.complete w.rd w.i).setPhase .idle)
  notReady (s : State) (w : Drain) (hi : w.i ≠ w.len) (hr : ready s = false) :
    contextStep (s.setPhase (poll w)) = .next (((s.cellRead .lsr).complete w.rd w.i).setPhase .idle)
  oneRound (s : State) (w : Drain) (h : Running s) (hi : w.i ≠ w.len) (hb : drainIndex w < Config.bufSize)
    (hr : ready s = true) :
    stepsFrom 2 (s.setPhase (poll w)) = .next ((round w.base.toNat w.i.toNat s).setPhase (poll (drainNext w)))
  frame (base i : Nat) (s : State) : RoundFrame s (round base i s)
  twoAccesses (base i : Nat) (s : State) : (round base i s).trace.length = s.trace.length + 2

theorem readDrainMachine : DrainMachine .rdPoll readReady readRound where
  poll_ne_idle w := nofun
  full s w hi := contextStep_rdPoll_full (s := s.setPhase (.rdPoll w)) rfl hi
  notReady s w hi hr := contextStep_rdPoll_notReady (s := s.setPhase (.rdPoll w)) rfl hi hr
  oneRound s w h hi hb hr := by
    have hpoll : step (s.setPhase (.rdPoll w)) = .next ((s.cellRead .lsr).setPhase (.rdData w)) :=
      h.step_setPhase nofun (contextStep_rdPoll_ready rfl hi hr)
    have hdata := (h.cellRead .lsr).step_setPhase (p := .rdData w) nofun (contextStep_rdData rfl hb)
    rw [stepsFrom_succ hpoll, stepsFrom_succ hdata]
    rfl
  frame base i s := ⟨rfl, rfl, rfl, ⟨rfl, rfl, rfl⟩⟩
  twoAccesses base i s := by simp [readRound]

theorem writeDrainMachine : DrainMachine .wrPoll writeReady writeRound where
  poll_ne_idle w := nofun
  full s w hi := contextStep_wrPoll_full (s := s.setPhase (.wrPoll w)) rfl hi
  notReady s w hi hr := contextStep_wrPoll_notReady (s := s.setPhase (.wrPoll w)) rfl hi hr
  oneRound s w h hi hb hr := by
    have hpoll : step (s.setPhase (.wrPoll w)) = .next ((s.cellRead .lsr).setPhase (.wrData w)) :=
      h.step_setPhase nofun (contextStep_wrPoll_ready rfl hi hr)
    have hdata := (h.cellRead .lsr).step_setPhase (p := .wrData w) nofun (contextStep_wrData rfl hb)
    rw [stepsFrom_succ hpoll, stepsFrom_succ hdata]
    rfl
  frame base i s := ⟨rfl, rfl, rfl, ⟨rfl, rfl, rfl⟩⟩
  twoAccesses base i s := by simp [writeRound]

theorem Running.of_frame {s t : State} (h : Running s) (hframe : RoundFrame s t) : Running t :=
  h.congr hframe.params hframe.others hframe.records.faults hframe.records.refused

theorem drainNext_ofNat (rd : Var) (base len : Byte) (i : Nat) :
    drainNext ⟨rd, base, len, BitVec.ofNat 8 i⟩ = ⟨rd, base, len, BitVec.ofNat 8 (i + 1)⟩ := by
  simp [drainNext, BitVec.ofNat_add]

section Machine

variable {poll : Drain → Phase} {ready : State → Bool} {round : Nat → Nat → State → State}
  (m : DrainMachine poll ready round)
include m

/-- The machine in the polling phase after `i` bytes computes the rest of the loop, in two steps a byte and one to end. -/
theorem DrainMachine.computes_loop (rd : Var) {base len : Byte} (hwindow : windowInBuffer base len = true) {n i : Nat}
    {s : State} (h : Running s) (hidle : s.ctx.phase = .idle) (hn : i + n = len.toNat) :
    ∃ k ≤ 2 * n + 1, stepsFrom k (s.setPhase (poll ⟨rd, base, len, BitVec.ofNat 8 i⟩))
      = .next (drainLoop ready (round base.toNat) rd n i s) := by
  have hlen := len.isLt
  have hi : (BitVec.ofNat 8 i).toNat = i := by
    rw [BitVec.toNat_ofNat]
    omega
  induction n generalizing i s with
  | zero =>
    have hfull : BitVec.ofNat 8 i = len := BitVec.eq_of_toNat_eq (by omega)
    refine ⟨1, by omega, ?_⟩
    rw [stepsFrom_succ (h.step_setPhase (m.poll_ne_idle _) (m.full s _ hfull))]
    exact congrArg _ (setPhase_of_phase_eq hidle)
  | succ n ih =>
    have hne : BitVec.ofNat 8 i ≠ len := fun heq => by rw [heq] at hi; omega
    rw [drainLoop]
    cases hr : ready s with
    | false =>
      refine ⟨1, by omega, ?_⟩
      rw [stepsFrom_succ (h.step_setPhase (m.poll_ne_idle _) (m.notReady s _ hne hr))]
      exact congrArg _ (setPhase_of_phase_eq hidle)
    | true =>
      have hframe := m.frame base.toNat i s
      obtain ⟨k, hk, hrest⟩ := ih (h.of_frame hframe) (hframe.records.phase.trans hidle) (i := i + 1) (by omega)
        (by rw [BitVec.toNat_ofNat]; omega)
      have hb : drainIndex ⟨rd, base, len, BitVec.ofNat 8 i⟩ < Config.bufSize :=
        drainIndex_lt_bufSize hwindow (by simp only [hi]; omega)
      have hround := m.oneRound s ⟨rd, base, len, BitVec.ofNat 8 i⟩ h hne hb hr
      rw [drainNext_ofNat, hi] at hround
      exact ⟨2 + k, by omega, (stepsFrom_add hround k).trans hrest⟩

theorem DrainMachine.computes {s : State} {i : Instr} {rd : Var} {base len : Byte} (h : Ready s i)
    (hexec : exec i s = .next (s.setPhase (poll ⟨rd, base, len, 0⟩))) (hwindow : windowInBuffer base len = true) :
    ∃ k ≤ 2 * len.toNat + 2, stepsFrom k s = .next (drainLoop ready (round base.toNat) rd len.toNat 0 s) := by
  obtain ⟨k, hk, hloop⟩ := m.computes_loop rd hwindow (running_of_ready h) h.idle (Nat.zero_add _)
  exact ⟨k + 1, by omega, (stepsFrom_succ (step_of_ready h hexec) k).trans hloop⟩

end Machine

end Sys2Proof.Machine

namespace Sys2Proof

open Sys2Proof.Machine Sys2Proof.Claims

/-- Settles O51: the six steps are those of `stepsFrom_writeDivisor`; the pseudocode only accesses and advances `pc`. -/
theorem writeDivisorMakesFiveAccesses : Obligations.WriteDivisorMakesFiveAccesses := by
  intro s d h
  refine ⟨seqWriteDivisor d s, stepsFrom_writeDivisor h, rfl, ?_, rfl, fun _ => rfl, ⟨rfl, rfl, rfl, fun _ => rfl⟩, rfl, rfl,
    rfl⟩
  simp [seqWriteDivisor, State.readByte]

/-- Settles O52, the pseudocode being the loop that the receive machine computes. -/
theorem readDrainRefinesThePseudocode : Obligations.ReadDrainRefinesThePseudocode := by
  intro s rd base len h
  rw [seqRead_eq_drainLoop]
  exact readDrainMachine.computes h rfl (wellFormed_of_ready h)

/-- Settles O53, the pseudocode being the loop that the transmit machine computes. -/
theorem writeDrainRefinesThePseudocode : Obligations.WriteDrainRefinesThePseudocode := by
  intro s rd base len h
  rw [seqWrite_eq_drainLoop]
  exact writeDrainMachine.computes h rfl (wellFormed_of_ready h)

end Sys2Proof
end

section
/-! SUPPORT. The count of a drain (R134, R135): a loop makes as many rounds as the device is ready for, so what it leaves is the state after those rounds; and what the rounds of each drain make of the trace and the buffer. -/

namespace Sys2Proof.Machine

open Sys2Proof.Claims

/-! ### The rounds of a loop -/

/-- The state after the first `n` rounds. -/
def afterRounds (round : Nat → State → State) (s : State) : Nat → State
  | 0 => s
  | n + 1 => round n (afterRounds round s n)

theorem afterReadRounds_eq (s : State) (base n : Nat) : afterReadRounds s base n = afterRounds (readRound base) s n := by
  induction n with
  | zero => rfl
  | succ n ih => rw [afterReadRounds, ih, afterRounds]

theorem afterWriteRounds_eq (s : State) (base n : Nat) : afterWriteRounds s base n = afterRounds (writeRound base) s n := by
  induction n with
  | zero => rfl
  | succ n ih => rw [afterWriteRounds, ih, afterRounds]

/-- The device is ready for `c` rounds of at most `len`, and no more. -/
structure ReadyCount (ready : State → Bool) (round : Nat → State → State) (s : State) (len c : Nat) : Prop where
  le : c ≤ len
  rounds : ∀ k < c, ready (afterRounds round s k) = true
  stops : c < len → ready (afterRounds round s c) = false

section Loop

variable {ready : State → Bool} {round : Nat → State → State} {s : State} {len c : Nat}

theorem exists_readyCount (ready : State → Bool) (round : Nat → State → State) (s : State) (len : Nat) :
    ∃ c, ReadyCount ready round s len c := by
  induction len with
  | zero => exact ⟨0, le_rfl, nofun, nofun⟩
  | succ len ih =>
    obtain ⟨c, hle, hready, hstops⟩ := ih
    rcases Nat.lt_or_eq_of_le hle with hlt | rfl
    · exact ⟨c, by omega, hready, fun _ => hstops hlt⟩
    · cases hnext : ready (afterRounds round s c) with
      | false => exact ⟨c, by omega, hready, fun _ => hnext⟩
      | true => exact ⟨c + 1, le_rfl, Nat.forall_lt_succ_right.mpr ⟨hready, hnext⟩, fun h => absurd h (lt_irrefl _)⟩

/-- The loop after the rounds it is ready for. -/
theorem ReadyCount.drainLoop_eq_after (h : ReadyCount ready round s len c) (rd : Var) {m : Nat} (hm : m ≤ c) :
    drainLoop ready round rd len 0 s = drainLoop ready round rd (len - m) m (afterRounds round s m) := by
  induction m with
  | zero => rfl
  | succ m ih =>
    have hleft : len - m = len - (m + 1) + 1 := by
      have := h.le
      omega
    rw [ih (by omega), hleft, drainLoop, if_pos (h.rounds m hm), afterRounds]

/-- The state a loop ends with, but for the count and `pc`: after `c` rounds, and after one more status read if it stopped
before the end of the window. -/
def afterDrain (round : Nat → State → State) (s : State) (len c : Nat) : State :=
  if c = len then afterRounds round s c else (afterRounds round s c).cellRead .lsr

theorem ReadyCount.drainLoop_eq (h : ReadyCount ready round s len c) (rd : Var) :
    drainLoop ready round rd len 0 s = (afterDrain round s len c).complete rd (BitVec.ofNat 8 c) := by
  rw [h.drainLoop_eq_after rd le_rfl, afterDrain]
  rcases Nat.lt_or_eq_of_le h.le with hlt | rfl
  · obtain ⟨n, hn⟩ : ∃ n, len - c = n + 1 := ⟨len - c - 1, by omega⟩
    rw [hn, drainLoop, h.stops hlt, if_neg hlt.ne]
    rfl
  · rw [Nat.sub_self, drainLoop, if_pos rfl]

end Loop

/-! ### The bound (R134) -/

section Bound

variable {poll : Drain → Phase} {ready : State → Bool} {round : Nat → Nat → State → State}
  (m : DrainMachine poll ready round) (base : Nat) (s : State)
include m

theorem DrainMachine.afterRounds_frame (n : Nat) :
    (afterRounds (round base) s n).ctx.pc = s.ctx.pc ∧ (afterRounds (round base) s n).ctx.phase = s.ctx.phase ∧
      (afterRounds (round base) s n).trace.length = s.trace.length + 2 * n := by
  induction n with
  | zero => exact ⟨rfl, rfl, rfl⟩
  | succ n ih =>
    obtain ⟨hpc, hphase, hlength⟩ := ih
    have hframe := m.frame base n (afterRounds (round base) s n)
    refine ⟨hframe.pc.trans hpc, hframe.records.phase.trans hphase, ?_⟩
    rw [afterRounds, m.twoAccesses, hlength]
    omega

theorem DrainMachine.afterDrain_frame (len c : Nat) :
    (afterDrain (round base) s len c).ctx.pc = s.ctx.pc ∧ (afterDrain (round base) s len c).ctx.phase = s.ctx.phase ∧
      (afterDrain (round base) s len c).trace.length = s.trace.length + if c = len then 2 * c else 2 * c + 1 := by
  obtain ⟨hpc, hphase, hlength⟩ := m.afterRounds_frame base s c
  unfold afterDrain
  split_ifs
  · exact ⟨hpc, hphase, hlength⟩
  · refine ⟨hpc, hphase, ?_⟩
    rw [State.cellRead_trace, List.length_append, hlength]
    rfl

omit base in
theorem DrainMachine.bounded {s : State} {i : Instr} {rd : Var} {base len : Byte} (h : Ready s i)
    (hexec : exec i s = .next (s.setPhase (poll ⟨rd, base, len, 0⟩))) (hwindow : windowInBuffer base len = true) :
    ∃ k t c, stepsFrom k s = .next t ∧ k ≤ 2 * len.toNat + 2 ∧ c ≤ len.toNat ∧ t.var rd = .byte (BitVec.ofNat 8 c) ∧
      t.ctx.phase = .idle ∧ t.ctx.pc = s.ctx.pc + 1 ∧
      t.trace.length = s.trace.length + (if c = len.toNat then 2 * c else 2 * c + 1) := by
  obtain ⟨k, hk, hsteps⟩ := m.computes h hexec hwindow
  obtain ⟨c, hc⟩ := exists_readyCount ready (round base.toNat) s len.toNat
  obtain ⟨hpc, hphase, hlength⟩ := m.afterDrain_frame base.toNat s len.toNat c
  rw [hc.drainLoop_eq] at hsteps
  exact ⟨k, _, c, hsteps, hk, hc.le, State.var_complete_same _ rd _, hphase.trans h.idle, congrArg (· + 1) hpc, hlength⟩

end Bound

/-! ### The buffer after the rounds of `read` -/

section Read

variable {s : State} {base : Nat}

theorem bufByte_afterDrain (round : Nat → State → State) (s : State) (len c a : Nat) :
    (afterDrain round s len c).bufByte a = (afterRounds round s c).bufByte a := by
  unfold afterDrain
  split_ifs <;> rfl

theorem afterReadRounds_buf_wf (hwf : s.ctx.buf.wf = true) {n : Nat} (hn : base + n ≤ Config.bufSize) :
    (afterRounds (readRound base) s n).ctx.buf.wf = true := by
  induction n with
  | zero => exact hwf
  | succ n ih => exact Memory.wf_memWrite (ih (by omega)) (by omega) _

/-- One more round puts its data byte at its index. -/
theorem bufByte_afterReadRounds_succ (hwf : s.ctx.buf.wf = true) {n : Nat} (hn : base + n ≤ Config.bufSize) (a : Nat) :
    (afterRounds (readRound base) s (n + 1)).bufByte a =
      if base + n = a then ((afterRounds (readRound base) s n).cellRead .lsr).readByte .data
      else (afterRounds (readRound base) s n).bufByte a :=
  memRead_memWrite (afterReadRounds_buf_wf hwf hn) _ a _

theorem bufByte_afterReadRounds_outside (hwf : s.ctx.buf.wf = true) {n : Nat} (hn : base + n ≤ Config.bufSize) {a : Nat}
    (ha : a < base ∨ base + n ≤ a) : (afterRounds (readRound base) s n).bufByte a = s.bufByte a := by
  induction n with
  | zero => rfl
  | succ n ih => rw [bufByte_afterReadRounds_succ hwf (by omega), if_neg (by omega), ih (by omega) (by omega)]

theorem bufByte_afterReadRounds_inside (hwf : s.ctx.buf.wf = true) {n : Nat} (hn : base + n ≤ Config.bufSize) {k : Nat}
    (hk : k < n) :
    (afterRounds (readRound base) s n).bufByte (base + k)
      = ((afterRounds (readRound base) s k).cellRead .lsr).readByte .data := by
  induction n with
  | zero => cases hk
  | succ n ih =>
    rw [bufByte_afterReadRounds_succ hwf (by omega)]
    rcases Nat.lt_succ_iff_lt_or_eq.mp hk with hlt | rfl
    · rw [if_neg (by omega), ih (by omega) hlt]
    · rw [if_pos rfl]

end Read

/-! ### The writes of the rounds of `write` -/

/-- The byte that round `k` sends. -/
def sentAccess (s : State) (base k : Nat) : Access :=
  { dir := .write, pos := .data, word := cellOfByte s.params.width (s.bufByte (base + k)) }

theorem trace_writeRound (base i : Nat) (s : State) :
    (writeRound base i s).trace = s.trace ++ [⟨.read, .lsr, s.answer .lsr⟩, sentAccess s base i] := by
  simp [writeRound, sentAccess]

theorem afterWriteRounds_frame (s : State) (base n : Nat) :
    (afterRounds (writeRound base) s n).params = s.params ∧ (afterRounds (writeRound base) s n).ctx.buf = s.ctx.buf := by
  induction n with
  | zero => exact ⟨rfl, rfl⟩
  | succ n ih => exact ih

/-- The new accesses of the rounds, without the status reads. -/
theorem afterWriteRounds_writes (s : State) (base n : Nat) :
    ∃ accesses, (afterRounds (writeRound base) s n).trace = s.trace ++ accesses ∧
      (accesses.filter fun a => decide (a.dir = .write)) = (List.range n).map (sentAccess s base) := by
  induction n with
  | zero => exact ⟨[], (List.append_nil _).symm, rfl⟩
  | succ n ih =>
    obtain ⟨accesses, htrace, hwrites⟩ := ih
    have hsent : sentAccess (afterRounds (writeRound base) s n) base n = sentAccess s base n := by
      obtain ⟨hparams, hbuf⟩ := afterWriteRounds_frame s base n
      simp only [sentAccess, State.bufByte, hparams, hbuf]
    refine ⟨accesses ++ [⟨.read, .lsr, (afterRounds (writeRound base) s n).answer .lsr⟩, sentAccess s base n], ?_, ?_⟩
    · rw [afterRounds, trace_writeRound, hsent, htrace, List.append_assoc]
    · rw [List.filter_append, hwrites, List.range_succ, List.map_append]
      rfl

theorem afterWriteDrain_writes (s : State) (base len c : Nat) :
    (newAccesses s (afterDrain (writeRound base) s len c)).filter (fun a => decide (a.dir = .write))
      = (List.range c).map (sentAccess s base) := by
  obtain ⟨accesses, htrace, hwrites⟩ := afterWriteRounds_writes s base c
  unfold afterDrain
  split_ifs
  · rw [newAccesses_of_append htrace, hwrites]
  · rw [newAccesses, State.cellRead_trace, htrace, List.append_assoc, List.drop_left, List.filter_append, hwrites]
    exact List.append_nil _

end Sys2Proof.Machine

namespace Sys2Proof

open Sys2Proof.Machine Sys2Proof.Claims

/-- Settles O54: the machine computes the loop, and the loop makes two accesses a round and one more status read if it stops
before the end. -/
theorem drainsAreBounded : Obligations.DrainsAreBounded := by
  rintro s i rd base len (rfl | rfl) h
  · exact readDrainMachine.bounded h rfl (wellFormed_of_ready h)
  · exact writeDrainMachine.bounded h rfl (wellFormed_of_ready h)

/-- Settles O55: the loop makes the `n` rounds, and each puts one byte at its own index. -/
theorem readCountIsTheReadyCount : Obligations.ReadCountIsTheReadyCount := by
  intro s rd base len n hwf hwindow hn hready hstops
  simp only [afterReadRounds_eq] at hready hstops ⊢
  have hcount : ReadyCount readReady (readRound base.toNat) s len.toNat n := ⟨hn, hready, hstops⟩
  have hfits : base.toNat + n ≤ Config.bufSize := le_trans (by omega) hwindow
  have hbuf (a : Nat) : (seqRead rd base len s).bufByte a = (afterRounds (readRound base.toNat) s n).bufByte a := by
    rw [seqRead_eq_drainLoop, hcount.drainLoop_eq]
    exact bufByte_afterDrain _ s len.toNat n a
  refine ⟨?count, fun a ha => ?outside, fun k hk => ?inside⟩
  case count => rw [seqRead_eq_drainLoop, hcount.drainLoop_eq, State.var_complete_same]
  case outside => rw [hbuf, bufByte_afterReadRounds_outside hwf hfits ha]
  case inside => rw [hbuf, bufByte_afterReadRounds_inside hwf hfits hk, State.readByte]

/-- Settles O56: the loop makes the `n` rounds, each of which sends one byte and keeps the buffer. -/
theorem writeCountIsTheReadyCount : Obligations.WriteCountIsTheReadyCount := by
  intro s rd base len n hn hready hstops
  simp only [afterWriteRounds_eq] at hready hstops
  have hcount : ReadyCount writeReady (writeRound base.toNat) s len.toNat n := ⟨hn, hready, hstops⟩
  rw [seqWrite_eq_drainLoop, hcount.drainLoop_eq]
  refine ⟨State.var_complete_same _ rd _, fun a => ?_, afterWriteDrain_writes s base.toNat len.toNat n⟩
  obtain ⟨-, hbuf⟩ := afterWriteRounds_frame s base.toNat n
  exact (bufByte_afterDrain _ s len.toNat n a).trans (congrArg (memRead · a) hbuf)

end Sys2Proof
end

section
/-! SUPPORT. Bits and fields of a byte (R50 to R54, R88, R118): what a set and a clear do to each bit, which bits the line-control setters leave, and which bits each decoder looks at; and the trigger level out of the byte it was put into (R87). -/

namespace Sys2Proof.Machine

/-! ### Bits -/

section Bits

variable {b k : Nat} {v : Byte}

theorem getLsbD_setBit (hb : b < 8) : (setBit b v).getLsbD k = (decide (b = k) || v.getLsbD k) := by
  rw [setBit, BitVec.getLsbD_or, ← BitVec.twoPow_eq, BitVec.getLsbD_twoPow, Bool.or_comm]
  simp [hb]

theorem getLsbD_clearBit (hb : b < 8) : (clearBit b v).getLsbD k = (!decide (b = k) && v.getLsbD k) := by
  rw [clearBit, BitVec.getLsbD_and, BitVec.getLsbD_not, ← BitVec.twoPow_eq, BitVec.getLsbD_twoPow, Bool.and_comm]
  by_cases hk : k < 8
  · simp [hb, hk]
  · simp [hk, BitVec.getLsbD_of_ge v k (Nat.not_lt.mp hk)]

theorem setBit_setBit (hb : b < 8) : setBit b (setBit b v) = setBit b v :=
  BitVec.eq_of_getLsbD_eq fun k _ => by simp only [getLsbD_setBit hb, ← Bool.or_assoc, Bool.or_self]

theorem clearBit_setBit (hb : b < 8) : clearBit b (setBit b v) = clearBit b v :=
  BitVec.eq_of_getLsbD_eq fun k _ => by
    simp only [getLsbD_setBit hb, getLsbD_clearBit hb]
    cases decide (b = k) <;> rfl

theorem setBit_clearBit (hb : b < 8) : setBit b (clearBit b v) = setBit b v :=
  BitVec.eq_of_getLsbD_eq fun k _ => by
    simp only [getLsbD_setBit hb, getLsbD_clearBit hb]
    cases decide (b = k) <;> rfl

theorem clearBit_eq_self_iff (hb : b < 8) : clearBit b v = v ↔ v.getLsbD b = false := by
  constructor
  · intro h
    rw [← h, getLsbD_clearBit hb]
    simp
  · refine fun h => BitVec.eq_of_getLsbD_eq fun k _ => ?_
    rw [getLsbD_clearBit hb]
    by_cases hk : b = k
    · subst hk; simp only [h, Bool.and_false]
    · simp [hk]

theorem getLsbD_setBit_of_ne (hb : b < 8) (hk : k ≠ b) : (setBit b v).getLsbD k = v.getLsbD k := by
  simp [getLsbD_setBit hb, hk.symm]

theorem getLsbD_clearBit_of_ne (hb : b < 8) (hk : k ≠ b) : (clearBit b v).getLsbD k = v.getLsbD k := by
  simp [getLsbD_clearBit hb, hk.symm]

end Bits

/-! ### The decoders of line control look at their own bits -/

section Decoders

variable {u v : Byte}

theorem extractLsb'_congr {k n : Nat} (h : ∀ i < n, u.getLsbD (k + i) = v.getLsbD (k + i)) :
    u.extractLsb' k n = v.extractLsb' k n :=
  BitVec.eq_of_getLsbD_eq fun i hi => by rw [BitVec.getLsbD_extractLsb', BitVec.getLsbD_extractLsb', h i hi]

theorem lcrParityOf_congr (h3 : u.getLsbD 3 = v.getLsbD 3) (h4 : u.getLsbD 4 = v.getLsbD 4) :
    lcrParityOf u = lcrParityOf v :=
  congrArg Parity.ofField (extractLsb'_congr fun i hi => by interval_cases i; exacts [h3, h4])

theorem lcrCharLenOf_congr (h0 : u.getLsbD 0 = v.getLsbD 0) (h1 : u.getLsbD 1 = v.getLsbD 1) :
    lcrCharLenOf u = lcrCharLenOf v :=
  congrArg CharLen.ofCode (extractLsb'_congr fun i hi => by interval_cases i; exacts [h0, h1])

theorem lcrOneStopBit_congr (h2 : u.getLsbD 2 = v.getLsbD 2) : lcrOneStopBit u = lcrOneStopBit v := congrArg (!·) h2

/-- A set or a clear of one of bits 5, 6 and 7 is seen by no decoder. -/
theorem lcrDecoders_congr (h : ∀ k < 5, u.getLsbD k = v.getLsbD k) :
    lcrParityOf u = lcrParityOf v ∧ lcrOneStopBit u = lcrOneStopBit v ∧ lcrCharLenOf u = lcrCharLenOf v :=
  ⟨lcrParityOf_congr (h 3 (by decide)) (h 4 (by decide)), lcrOneStopBit_congr (h 2 (by decide)),
    lcrCharLenOf_congr (h 0 (by decide)) (h 1 (by decide))⟩

end Decoders

/-! ### The setters of line control write their own bits -/

section Setters

variable (v : Byte)

/-- A field put into a byte: where the mask keeps the bit and the field has none, the bit is as before. -/
theorem getLsbD_and_or {mask field : Byte} {k : Nat} (hmask : mask.getLsbD k = true) (hfield : field.getLsbD k = false) :
    (v &&& mask ||| field).getLsbD k = v.getLsbD k := by
  rw [BitVec.getLsbD_or, BitVec.getLsbD_and, hmask, hfield, Bool.and_true, Bool.or_false]

/-- The field read back: the mask leaves none of its old bits. -/
theorem extractLsb'_and_or {mask field : Byte} {k n : Nat} (hmask : mask.extractLsb' k n = 0#n) :
    (v &&& mask ||| field).extractLsb' k n = field.extractLsb' k n := by
  rw [BitVec.extractLsb'_or, BitVec.extractLsb'_and, hmask, BitVec.and_zero, BitVec.zero_or]

theorem getLsbD_lcrWithParity (p : Parity) {k : Nat} (hk : k ∈ [0, 1, 2, 5, 6, 7]) :
    (lcrWithParity v p).getLsbD k = v.getLsbD k := by
  have hmask : ∀ k ∈ [0, 1, 2, 5, 6, 7], (0xE7#8).getLsbD k = true := by decide
  have hfield : ∀ k ∈ [0, 1, 2, 5, 6, 7], (codeByte p.code <<< 3).getLsbD k = false := by cases p <;> decide
  exact getLsbD_and_or v (hmask k hk) (hfield k hk)

theorem lcrParityOf_lcrWithParity (p : Parity) : lcrParityOf (lcrWithParity v p) = p := by
  rw [lcrParityOf, lcrWithParity, extractLsb'_and_or v (by decide)]
  cases p <;> decide

theorem getLsbD_lcrWithCharLen (c : CharLen) {k : Nat} (hk : k ∈ [2, 3, 4, 5, 6, 7]) :
    (lcrWithCharLen v c).getLsbD k = v.getLsbD k := by
  have hmask : ∀ k ∈ [2, 3, 4, 5, 6, 7], (0xFC#8).getLsbD k = true := by decide
  have hfield : ∀ k ∈ [2, 3, 4, 5, 6, 7], (codeByte c.code).getLsbD k = false := by cases c <;> decide
  exact getLsbD_and_or v (hmask k hk) (hfield k hk)

theorem lcrCharLenOf_lcrWithCharLen (c : CharLen) : lcrCharLenOf (lcrWithCharLen v c) = c := by
  rw [lcrCharLenOf, lcrWithCharLen, extractLsb'_and_or v (by decide)]
  cases c <;> decide

theorem getLsbD_lcrWithOneStopBit (one : Bool) {k : Nat} (hk : k ≠ 2) :
    (lcrWithOneStopBit v one).getLsbD k = v.getLsbD k := by
  cases one with
  | true => exact getLsbD_clearBit_of_ne (by decide) hk
  | false => exact getLsbD_setBit_of_ne (by decide) hk

theorem lcrOneStopBit_lcrWithOneStopBit (one : Bool) : lcrOneStopBit (lcrWithOneStopBit v one) = one := by
  cases one with
  | true =>
    have hbit : (clearBit 2 v).getLsbD 2 = false := by rw [getLsbD_clearBit (by decide)]; rfl
    exact congrArg (!·) hbit
  | false =>
    have hbit : (setBit 2 v).getLsbD 2 = true := by rw [getLsbD_setBit (by decide)]; rfl
    exact congrArg (!·) hbit

end Setters

/-! ### The trigger level -/

/-- R50: bits [7:6] of a FIFO-control byte are the code of its level, whatever the flags. -/
theorem fifoByte_ushiftRight (level : TriggerLevel) (flags : BitVec 3) :
    fifoByte level flags >>> 6 = level.code.setWidth 8 := by
  revert flags
  cases level <;> decide

/-- R87: the level's code out of the byte that an encoder put into `t[a]`. -/
theorem fifoTriggerLevel_of_fifoByte (a b : Var) (level : TriggerLevel) (flags : BitVec 3) (s : State) :
    ∃ u, exec (.fifoTriggerLevel b a) (s.complete a (fifoByte level flags)) = .next u ∧
      u.var b = .byte (level.code.setWidth 8) := by
  refine ⟨(s.complete a (fifoByte level flags)).complete b (level.code.setWidth 8), ?_, State.var_complete_same _ b _⟩
  rw [exec_fifoTriggerLevel, pureOp_byte (State.var_complete_same s a _), fifoByte_ushiftRight]

end Sys2Proof.Machine

namespace Sys2Proof

open Sys2Proof.Machine

/-- Settles O36, bit by bit. -/
theorem enableDisableLaws : Obligations.EnableDisableLaws := by
  intro b v hb
  refine ⟨setBit_setBit hb, clearBit_setBit hb, setBit_clearBit hb, ?_, fun k hk =>
    ⟨getLsbD_setBit_of_ne hb hk, getLsbD_clearBit_of_ne hb hk⟩⟩
  rw [clearBit_setBit hb, clearBit_eq_self_iff hb]

/-- Settles O43: a setter's bits are those its own decoder looks at, and no decoder looks at bits 5 to 7. -/
theorem lcrFieldsAreIndependent : Obligations.LcrFieldsAreIndependent := by
  intro v p one c
  have hp {k : Nat} := getLsbD_lcrWithParity v p (k := k)
  have hs {k : Nat} := getLsbD_lcrWithOneStopBit v one (k := k)
  have hc {k : Nat} := getLsbD_lcrWithCharLen v c (k := k)
  refine ⟨⟨lcrParityOf_lcrWithParity v p, ?_, ?_⟩, ⟨lcrOneStopBit_lcrWithOneStopBit v one, ?_, ?_⟩,
    ⟨lcrCharLenOf_lcrWithCharLen v c, ?_, ?_⟩, fun k hk => ?high, fun b hb u hu => ?single⟩
  · exact lcrOneStopBit_congr (hp (by decide))
  · exact lcrCharLenOf_congr (hp (by decide)) (hp (by decide))
  · exact lcrParityOf_congr (hs (by decide)) (hs (by decide))
  · exact lcrCharLenOf_congr (hs (by decide)) (hs (by decide))
  · exact lcrParityOf_congr (hc (by decide)) (hc (by decide))
  · exact lcrOneStopBit_congr (hc (by decide))
  case high => exact ⟨hp (by simp [hk]), hs (by omega), hc (by simp [hk])⟩
  case single =>
    refine lcrDecoders_congr fun k hk => ?_
    rcases hu with rfl | rfl
    · exact getLsbD_setBit_of_ne (by omega) (by omega)
    · exact getLsbD_clearBit_of_ne (by omega) (by omega)

/-- Settles O32: both encoders are constant operations that store a FIFO-control byte of the level. -/
theorem fifoTriggerRoundTrip : Obligations.FifoTriggerRoundTrip := by
  rintro a b level i s (rfl | rfl)
  · obtain ⟨u, hu, hcode⟩ := fifoTriggerLevel_of_fifoByte a b level 0b111 s
    exact ⟨_, u, rfl, hu, hcode⟩
  · obtain ⟨u, hu, hcode⟩ := fifoTriggerLevel_of_fifoByte a b level 0b001 s
    exact ⟨_, u, rfl, hu, hcode⟩

end Sys2Proof
end

section
/-! SUPPORT. The register map (R5, R27, R28, R35) and the reset state (R25, R150). -/

namespace Sys2Proof.Machine

@[simp] theorem stride_narrow : stride .narrow = 1 := by decide

@[simp] theorem stride_wide : stride .wide = 4 := by decide

theorem positionIndex_lt (pos : Position) : positionIndex pos < 7 := by cases pos <;> decide

/-- R27: every byte of every cell lies in the region. -/
theorem inRegion_positionAddress (p : Params) (pos : Position) {k : Nat} (hk : k < stride p.width) :
    inRegion p (positionAddress p pos + k) = true := by
  have hend : positionAddress p pos + k < p.base + 7 * stride p.width := by
    have hcell : positionIndex pos * stride p.width + stride p.width ≤ 7 * stride p.width := by
      rw [← Nat.succ_mul]
      exact Nat.mul_le_mul_right _ (positionIndex_lt pos)
    unfold positionAddress
    omega
  have hstart : p.base ≤ positionAddress p pos + k := by
    unfold positionAddress
    omega
  rw [inRegion, decide_eq_true hstart, decide_eq_true hend]
  rfl

theorem State.var_reset (r : Var) : State.reset.var r = .unwritten := by simp [State.reset, State.var]

end Sys2Proof.Machine

namespace Sys2Proof

open Sys2Proof.Machine

/-- Settles O22: the stride is 4 or 1. -/
theorem registerMapOffsets : Obligations.RegisterMapOffsets := by
  refine fun p => ⟨fun hwide => ?wide, fun hnarrow => ?narrow, fun pos k hk => inRegion_positionAddress p pos hk⟩
  case wide => simp [positionAddress, positionIndex, hwide]
  case narrow => simp [positionAddress, positionIndex, hnarrow]

/-- Settles O23: a narrow cell has one byte address, and a wide cell's highest is 3 above the lowest. -/
theorem significantByteLane : Obligations.SignificantByteLane := by
  refine fun p pos => ⟨fun hnarrow => ?narrow, fun hwide hlittle => ?little, fun hwide hbig => ?big⟩
  case narrow => cases hendian : p.endian <;> simp [significantByteAddress, hendian, hnarrow]
  case little => simp [significantByteAddress, hlittle]
  case big => simp [significantByteAddress, hbig, hwide]

/-- Settles O21: the reset state is a construction with aligned parameters. -/
theorem resetHoldsTheConstructionValues : Obligations.ResetHoldsTheConstructionValues :=
  ⟨State.var_reset, rfl, rfl, rfl, rfl, rfl, rfl, fun _ => rfl, construct_eq_some_iff.mpr ⟨rfl, rfl⟩⟩

end Sys2Proof
end

section
/-! SUPPORT. Assembler text (R67, R68): the expansion of each pseudo-operation from the pieces of its line. -/

namespace Sys2Proof.Machine

open Sys2Proof.Claims

section Expansion

variable {a : Var} {x : List Char} (hx : parseVar x = some a)
include hx

/-- An operation of the register's family: its shape builds it from the variable, twice, and what else is written. -/
theorem assembleRmw_eq {family : List (String × AsmForm)} {read write : Var → Instr} {f : List Char} {e : List (List Char)}
    {form : AsmForm} {i : Instr} (hf : lookupName family f = some form) (hi : form.build (x :: x :: e) = some i) :
    assembleRmw family read write (x :: f :: e) = some [read a, i, write a] := by
  simp [assembleRmw, hx, hf, hi]

theorem build_rr {k : Var → Var → Instr} : (AsmForm.rr k).build [x, x] = some (k a a) := by simp [AsmForm.build, hx]

theorem build_rrparity {k : Var → Var → Parity → Instr} {e : List Char} {p : Parity} (he : lookupName parityNames e = some p) :
    (AsmForm.rrparity k).build [x, x, e] = some (k a a p) := by
  simp [AsmForm.build, hx, he]

theorem build_rrbool {k : Var → Var → Bool → Instr} {e : List Char} {one : Bool} (he : lookupName boolNames e = some one) :
    (AsmForm.rrbool k).build [x, x, e] = some (k a a one) := by
  simp [AsmForm.build, hx, he]

theorem build_rrlen {k : Var → Var → CharLen → Instr} {e : List Char} {c : CharLen}
    (he : lookupName charLenNames e = some c) : (AsmForm.rrlen k).build [x, x, e] = some (k a a c) := by
  simp [AsmForm.build, hx, he]

theorem assembleOp_ierOperation {e : String × (Var → Var → Instr)} (he : e ∈ ierOperations) :
    assembleOp "rmw_ier".toList [x, e.1.toList] = some [.ierRead a, e.2 a a, .ierWrite a] := by
  have hform : lookupName ierForms e.1.toList = some (.rr e.2) := by fin_cases he <;> rfl
  exact assembleRmw_eq hx hform (build_rr hx)

theorem assembleOp_lcrOperation {e : String × (Var → Var → Instr)} (he : e ∈ lcrOperations) :
    assembleOp "rmw_lcr".toList [x, e.1.toList] = some [.lcrRead a, e.2 a a, .lcrWrite a] := by
  have hform : lookupName lcrForms e.1.toList = some (.rr e.2) := by fin_cases he <;> rfl
  exact assembleRmw_eq hx hform (build_rr hx)

/-- Each setter has a shape in the table, which builds it with each member of its enumeration. -/
theorem exists_form_of_lcrSetter {e : String × String × (Var → Var → Instr)} (he : e ∈ lcrSetters) :
    ∃ form, lookupName lcrForms e.1.toList = some form ∧ form.build [x, x, e.2.1.toList] = some (e.2.2 a a) := by
  fin_cases he
  · exact ⟨_, rfl, build_rrparity hx rfl⟩
  · exact ⟨_, rfl, build_rrparity hx rfl⟩
  · exact ⟨_, rfl, build_rrparity hx rfl⟩
  · exact ⟨_, rfl, build_rrbool hx rfl⟩
  · exact ⟨_, rfl, build_rrbool hx rfl⟩
  · exact ⟨_, rfl, build_rrlen hx rfl⟩
  · exact ⟨_, rfl, build_rrlen hx rfl⟩
  · exact ⟨_, rfl, build_rrlen hx rfl⟩
  · exact ⟨_, rfl, build_rrlen hx rfl⟩

theorem assembleOp_lcrSetter {e : String × String × (Var → Var → Instr)} (he : e ∈ lcrSetters) :
    assembleOp "rmw_lcr".toList [x, e.1.toList, e.2.1.toList] = some [.lcrRead a, e.2.2 a a, .lcrWrite a] := by
  obtain ⟨form, hform, hbuild⟩ := exists_form_of_lcrSetter hx he
  exact assembleRmw_eq hx hform hbuild

theorem assembleOp_fifoInit {e : List Char} {level : TriggerLevel} (he : lookupName levelNames e = some level) :
    assembleOp "fifo_init".toList [x, e] = some [.fifoAndReset a level, .fcrWrite a] := by
  have hinit : (do some (fifoInit (← parseVar x) (← lookupName levelNames e))) = some (fifoInit a level) := by
    simp [hx, he]
  exact hinit

theorem assembleOp_fifoKeep {e : List Char} {level : TriggerLevel} (he : lookupName levelNames e = some level) :
    assembleOp "fifo_keep".toList [x, e] = some [.fifoWithoutReset a level, .fcrWrite a] := by
  have hkeep : (do some (fifoKeep (← parseVar x) (← lookupName levelNames e))) = some (fifoKeep a level) := by
    simp [hx, he]
  exact hkeep

theorem assembleOp_lcrInit : assembleOp "lcr_init".toList [x] = some [.lcrDefault a, .lcrWrite a] := by
  have hinit : (parseVar x).map lcrInit = some (lcrInit a) := by rw [hx]; rfl
  exact hinit

end Expansion

end Sys2Proof.Machine

namespace Sys2Proof

open Sys2Proof.Machine Sys2Proof.Claims

/-- Settles O4: the assembler and the decoder run on the examples. -/
theorem notationExamplesAssemble : Obligations.NotationExamplesAssemble := by
  refine ⟨by decide, ?decodes⟩
  case decodes => decide

/-- Settles O60: the lines run, and from its pieces each pseudo-operation is built by the shape that its table has under the
name. -/
theorem pseudoOperationsExpand : Obligations.PseudoOperationsExpand := by
  refine ⟨by decide, by decide, fun a x hx => ⟨fun e he => assembleOp_ierOperation hx he,
    fun e he => assembleOp_lcrOperation hx he, fun e he => assembleOp_lcrSetter hx he, fun e he => ?levels,
    assembleOp_lcrInit hx⟩⟩
  case levels =>
    have hlevel : lookupName levelNames e.1.toList = some e.2 := by fin_cases he <;> rfl
    exact ⟨assembleOp_fifoInit hx hlevel, assembleOp_fifoKeep hx hlevel⟩

end Sys2Proof
end
